-- ==== Sys2Proof/Word.lean ====
section
/-!
DEFINITION. The widths of the block's values (10_state.md R18–R24; 30_encoding.md R45, R49). Every value is
unsigned (00_scope.md R9) and none is wider than 8 bits (20_memory.md R37).
-/
namespace Sys2Proof

/-- A Tick: one reading of the free-running counter, 8 bits (R6 TICK_WIDTH, R12). -/
abbrev Tick := BitVec 8

/-- A received byte, 8 bits (R22, R47). -/
abbrev Byte := BitVec 8

/-- BIT_COUNT, 4 bits, so that the transient value 8 fits (R21). -/
abbrev BitCount := BitVec 4

/-- COLUMN, 5 bits, so that the value 21 fits (R23). -/
abbrev Column := BitVec 5

/-- ROW, 3 bits (R24). -/
abbrev Row := BitVec 3

end Sys2Proof
end

