-- ==== Sys2Proof/Syntax.lean ====
section
/-!
DEFINITION. The names of the spec: PHASE's twelve values (R14), symbols and commands (R46, R48), sink events
(R49), the 24 rows of spec/opcode_table.json as `Instr`, the moves of the agents, and the stimulus notation
(R52).
-/
namespace Sys2Proof

/-- The twelve values of the sequencer register PHASE (10_state.md R14). -/
inductive Phase
  | idle | capture | wait1 | sample1 | recapture | wait2 | sample2 | accum
  | finWrap | finDispatch | finHome | finDone
  deriving DecidableEq, Repr, Inhabited

/-- A symbol: what one activation classifies (R12, R68). -/
inductive Symbol
  | reset
  | bit (b : Bool)
  deriving DecidableEq, Repr

/-- The action a completed byte selects (30_encoding.md R48). -/
inductive Command
  | clear
  | print (b : Byte)
  | lineBreak
  deriving DecidableEq, Repr

/-- One call of the Output Sink (30_encoding.md R49). `init` is never emitted by the block. -/
inductive SinkEvent
  | init
  | clear
  | setCursor (col : Column) (row : Row)
  | printChar (b : Byte)
  deriving DecidableEq, Repr

/-- The two steps of TT_INIT (40_tick_timer.md R53). The second carries the draw TCNT takes: the spec leaves it
free, and `BOOT t` of R52 writes it as an operand (log 5). -/
inductive InitStep
  | begins
  | completes (draw : Tick)
  deriving DecidableEq, Repr, Inhabited

/-- The operations of the block and of the agents around it: one constructor per row of spec/opcode_table.json. -/
inductive Instr
  /-- TT_INIT, R53: one of the two steps of the boot agent's `init()`. -/
  | ttInit (half : InitStep)
  /-- TT_TICK, R54: one increment by the tick source. -/
  | ttTick
  /-- TT_NOW, R55: a caller reads the current tick. -/
  | ttNow
  /-- TT_ELAPSED, R56: a caller asks for the ticks since `since`. -/
  | ttElapsed (since : Tick)
  /-- TT_US_TO_TICKS, R58: the configuration converts a duration in µs. No agent's step performs it. -/
  | ttUsToTicks (us : Nat)
  /-- TT_WAIT, R59: one poll of the wait for `n` ticks after `ref`; `next` is the phase it leaves to. -/
  | ttWait (ref n : Tick) (next : Phase)
  /-- EDGE, R60: one line-driver step that sets LINE to `level`; from high to low it is the falling edge. -/
  | edge (level : Bool)
  /-- CAPTURE, R61. -/
  | capture
  /-- WAIT1, R62. -/
  | wait1
  /-- SAMPLE1, R63. -/
  | sample1
  /-- RECAPTURE, R65. -/
  | recapture
  /-- WAIT2, R66. -/
  | wait2
  /-- SAMPLE2, R67. -/
  | sample2
  /-- ACCUM, R70–R72. -/
  | accum
  /-- SYM_RESET, R64. -/
  | symReset
  /-- SYM_BIT1, R70. -/
  | symBit1
  /-- SYM_BIT0, R71. -/
  | symBit0
  /-- FIN_WRAP, R75. -/
  | finWrap
  /-- FIN_DISPATCH, R48. -/
  | finDispatch
  /-- CMD_CLEAR, R76, its FIN_DISPATCH step. -/
  | cmdClear
  /-- FIN_HOME, R76, the second step of CMD_CLEAR. -/
  | finHome
  /-- CMD_PRINT, R77, of the byte `b`. -/
  | cmdPrint (b : Byte)
  /-- CMD_LINEBREAK, R78. -/
  | cmdLinebreak
  /-- FIN_DONE, R79. -/
  | finDone
  deriving DecidableEq, Repr

/-- The `format` column of spec/opcode_table.json: the level at which a row is decoded (30_encoding.md). -/
inductive Format
  | interface | environmentEvent | configurationFunction | interruptEvent
  | phase | sampleWord | commandByte
  deriving DecidableEq, Repr

/-- The bits of an operation, with the format that says how to read them: the same bits mean different rows as a
PHASE value, a sample word or a command byte. -/
structure CodeWord where
  format : Format
  bits : Byte
  deriving DecidableEq, Repr

/-- Why bits are no operation. -/
inductive DecodeError
  /-- The format's rows have no bit pattern (R53–R56, R58, R60). -/
  | noBitPattern
  /-- A bit above the format's width is set. -/
  | tooWide
  /-- PHASE = IDLE has no step: the block waits for an edge (R14). -/
  | idlePhase
  /-- PHASE 12..15 are unused (R14). -/
  | unusedPhase
  deriving DecidableEq, Repr

/-- What a decoder answers. -/
inductive Decoded
  | instr (i : Instr)
  | rejected (why : DecodeError)
  deriving DecidableEq, Repr

/-- One step of one agent (00_scope.md R5): the letters of a tick-level schedule (R52). -/
inductive Move
  /-- `BLK`: the block takes the step its PHASE selects. -/
  | block
  /-- `ENV TICK 1`: the tick source (R54). -/
  | tick
  /-- `ENV LINE v`: the line driver (R28, R60). -/
  | line (level : Bool)
  /-- The boot agent begins the timer's `init()` (R53 step 1). -/
  | initBegins
  /-- The boot agent completes it, with this draw (R53 step 2). -/
  | initCompletes (draw : Tick)
  /-- The boot agent calls the sink's `init()` (R99 step 2). -/
  | sinkInit
  /-- The boot agent sets EDGE_EN (R99 step 3). -/
  | enableEdges
  /-- A caller's `now()` (R55). -/
  | now
  /-- A caller's `elapsed(since)` (R56). -/
  | elapsed (since : Tick)
  /-- Hardware reset, with the values it leaves in TCNT, T0 and SYM (R97 "take any value"). -/
  | hardwareReset (tcnt t0 : Tick) (sym : Bool)
  deriving DecidableEq, Repr, Inhabited

/-- A symbol-level statement of the stimulus notation (30_encoding.md R52). -/
inductive SymbolStatement
  | rst
  | b1
  | b0
  | byte (v : Byte)
  | text (s : List Char)
  deriving DecidableEq, Repr

/-- A tick-level statement of the stimulus notation (30_encoding.md R52). -/
inductive TickStatement
  | envTick (n : Nat)
  | envLine (v : Bool)
  | blk (n : Nat)
  | boot (t : Tick)
  deriving DecidableEq, Repr

end Sys2Proof
end

