-- ==== Sys2Proof/Config.lean ====
section
/-!
DEFINITION. The fixed parameters (00_scope.md R6), the open parameters (R7) as plain data a machine carries, the
raw configuration an implementer writes down (checked by R8 in WellFormed.lean), and the free values: opaque
constants, of which nothing can be proved.
-/
namespace Sys2Proof

/-- R6 MAX_TICK. -/
def maxTick : Nat := 255

/-- R6 BITS_PER_BYTE. -/
def bitsPerByte : Nat := 8

/-- R6 LINE_WIDTH: the column value that triggers an end-of-line wrap. -/
def lineWidth : Nat := 21

/-- R6 CMD_LINEBREAK. -/
def lineBreakByte : Byte := 0x00

/-- R6 CMD_CLEAR. -/
def clearByte : Byte := 0x01

/-- R7 EDGE_POLICY: what becomes of a falling edge that arrives during an activation. -/
inductive EdgePolicy
  | drop
  | latchOne
  deriving DecidableEq, Repr, Inhabited

/-- usToTicks of a configuration (R7, R58), as plain data that names a function: the results `table` lists and, for
every other duration, a free function, one for each `base` (log 8). -/
structure Conversion where
  /-- Durations in µs, each with its result in ticks. -/
  table : List (Nat × Nat)
  /-- Which free function gives every duration the table does not list. -/
  base : Nat
  deriving DecidableEq, Repr

/-- The configuration of an admitted machine (R7), "fixed when the block is built" (R17). -/
structure Params where
  /-- RESET_THRESHOLD_TICKS, which is also BIT_WINDOW_TICKS (R6, R7). -/
  thr : Tick
  /-- TICK_RATE, ticks per µs. The model has no time, so nothing reads it (R107; log 12). -/
  tickRate : Rat
  /-- usToTicks (R7, R58; log 8). -/
  conversion : Conversion
  /-- The timing constants in µs that the configuration converts (R8). -/
  constants : List Nat
  /-- EDGE_POLICY. -/
  edgePolicy : EdgePolicy
  /-- LINE_INIT: the line's level at reset, `true` for high (R28). -/
  lineInit : Bool
  /-- MAX_TICKS_BETWEEN_POLLS, `none` for unbounded. -/
  maxTicksBetweenPolls : Option Nat
  /-- DEBUG_PIN: whether the build has the pin. A record only (R30; log 12). -/
  debugPin : Bool
  deriving DecidableEq, Repr

/-- A configuration as an implementer writes it down, before the check of R8. -/
structure RawConfig where
  thr : Nat
  tickRate : Rat
  conversion : Conversion
  constants : List Nat
  edgePolicy : EdgePolicy
  lineInit : Bool
  maxTicksBetweenPolls : Option Nat
  debugPin : Bool
  deriving DecidableEq, Repr

/-- Free: THR of the machine that `State.reset` describes (R7 OPEN; log 2). -/
opaque Config.thr : Tick

/-- Free: TICK_RATE of that machine (R7 OPEN; log 2). -/
opaque Config.tickRate : Rat

/-- Free: LINE_INIT of that machine (R7 OPEN; log 2). -/
opaque Config.lineInit : Bool

/-- Free: whether that machine has a debug pin (R7; log 12). -/
opaque Config.debugPin : Bool

/-- Free: the functions from µs to ticks that configurations name by a number (R7, R58; log 8). -/
opaque Config.usToTicks : Nat → Nat → Nat

/-- usToTicks(us) of a configuration (R7, R58): one total function, before the check of R8 and after it. -/
def Conversion.ticks (c : Conversion) (us : Nat) : Nat :=
  (c.table.lookup us).getD (Config.usToTicks c.base us)

/-- Free: the agents' interleaving where the schedule says nothing (R5, R85; log 4). -/
opaque Config.freeMove : Nat → Move

/-- The configuration of `State.reset`: the spec's defaults where R7 has one (EDGE_POLICY Drop, no bound between
polls), free values where it says OPEN. -/
def Config.chip : Params where
  thr := Config.thr
  tickRate := Config.tickRate
  conversion := { table := [], base := 0 }
  constants := []
  edgePolicy := .drop
  lineInit := Config.lineInit
  maxTicksBetweenPolls := none
  debugPin := Config.debugPin

end Sys2Proof
end

