-- ==== Sys2Proof/WellFormed.lean ====
section
/-!
DEFINITION. Well-formedness: of an instruction as a term, and of a configuration (00_scope.md R8).
-/
namespace Sys2Proof

/-- CMD_PRINT's byte is "any byte other than 0x00 and 0x01" (R77, R48). No other row restricts its operands. -/
def Instr.wf : Instr → Bool
  | .cmdPrint b => b != lineBreakByte && b != clearByte
  | .ttInit _ | .ttTick | .ttNow | .ttElapsed _ | .ttUsToTicks _ | .ttWait _ _ _ | .edge _
  | .capture | .wait1 | .sample1 | .recapture | .wait2 | .sample2 | .accum
  | .symReset | .symBit1 | .symBit0 | .finWrap | .finDispatch | .cmdClear | .finHome
  | .cmdLinebreak | .finDone => true

/-- R8, first condition: THR is an 8-bit value. -/
def RawConfig.thrFits (c : RawConfig) : Bool := c.thr ≤ maxTick

/-- R8, second condition: every timing constant the configuration converts fits a Tick. -/
def RawConfig.constantsFit (c : RawConfig) : Bool := c.constants.all fun u => c.conversion.ticks u ≤ maxTick

/-- R8: the configurations a model admits. (Its third condition, on EDGE_POLICY, is the type's.) -/
def RawConfig.wf (c : RawConfig) : Bool := c.thrFits && c.constantsFit

end Sys2Proof
end

