-- ==== Sys2Proof/Decode.lean ====
section
/-!
DEFINITION. The decode tables of 30_encoding.md (R45, R46, R48), PHASE's encoding (10_state.md R14), a decoder
that is total on every format and byte, the encoder beside it, and the host's untagged reading of a table row.
-/
namespace Sys2Proof

/-- PHASE's 4-bit encoding (10_state.md R14). -/
def Phase.code : Phase → BitVec 4
  | .idle => 0
  | .capture => 1
  | .wait1 => 2
  | .sample1 => 3
  | .recapture => 4
  | .wait2 => 5
  | .sample2 => 6
  | .accum => 7
  | .finWrap => 8
  | .finDispatch => 9
  | .finHome => 10
  | .finDone => 11

/-- The phase a 4-bit value encodes; 12..15 are unused (10_state.md R14). -/
def Phase.ofCode? (b : BitVec 4) : Option Phase :=
  match b.toNat with
  | 0 => some .idle
  | 1 => some .capture
  | 2 => some .wait1
  | 3 => some .sample1
  | 4 => some .recapture
  | 5 => some .wait2
  | 6 => some .sample2
  | 7 => some .accum
  | 8 => some .finWrap
  | 9 => some .finDispatch
  | 10 => some .finHome
  | 11 => some .finDone
  | _ => none

/-- The block step PHASE selects (R14, column "step rule"); IDLE has none. -/
def Phase.row : Phase → Option Instr
  | .idle => none
  | .capture => some .capture
  | .wait1 => some .wait1
  | .sample1 => some .sample1
  | .recapture => some .recapture
  | .wait2 => some .wait2
  | .sample2 => some .sample2
  | .accum => some .accum
  | .finWrap => some .finWrap
  | .finDispatch => some .finDispatch
  | .finHome => some .finHome
  | .finDone => some .finDone

/-- The classification function (41_classifier.md R68). -/
def classify (s1 s2 : Bool) : Symbol := if s1 then .reset else .bit s2

/-- The sample word: s1 is bit 1, s2 is bit 0 (R45); the symbol it selects (R46). -/
def decodeSample (w : BitVec 2) : Symbol := classify (w.getLsbD 1) (w.getLsbD 0)

/-- The row of a symbol (R46). -/
def Symbol.row : Symbol → Instr
  | .reset => .symReset
  | .bit true => .symBit1
  | .bit false => .symBit0

/-- The command a completed byte selects, tested in the order of R48. -/
def decodeCommand (b : Byte) : Command :=
  if b = clearByte then .clear else if b ≠ lineBreakByte then .print b else .lineBreak

/-- The row of a command (R48). -/
def Command.row : Command → Instr
  | .clear => .cmdClear
  | .print b => .cmdPrint b
  | .lineBreak => .cmdLinebreak

/-- Bits read as a PHASE value. -/
def decodePhaseBits (b : Byte) : Decoded :=
  if 16 ≤ b.toNat then .rejected .tooWide
  else
    match Phase.ofCode? (b.truncate 4) with
    | none => .rejected .unusedPhase
    | some p =>
      match p.row with
      | none => .rejected .idlePhase
      | some i => .instr i

/-- Bits read as a sample word. -/
def decodeSampleBits (b : Byte) : Decoded :=
  if 4 ≤ b.toNat then .rejected .tooWide else .instr (decodeSample (b.truncate 2)).row

/-- The decoder: total on every format and byte. -/
def decode (c : CodeWord) : Decoded :=
  match c.format with
  | .phase => decodePhaseBits c.bits
  | .sampleWord => decodeSampleBits c.bits
  | .commandByte => .instr (decodeCommand c.bits).row
  | .interface | .environmentEvent | .configurationFunction | .interruptEvent => .rejected .noBitPattern

/-- The format of each row (column "format" of spec/opcode_table.json). -/
def Instr.format : Instr → Format
  | .ttInit _ | .ttNow | .ttElapsed _ => .interface
  | .ttTick => .environmentEvent
  | .ttUsToTicks _ => .configurationFunction
  | .edge _ => .interruptEvent
  | .ttWait _ _ _ | .capture | .wait1 | .sample1 | .recapture | .wait2 | .sample2 | .accum
  | .finWrap | .finDispatch | .finHome | .finDone => .phase
  | .symReset | .symBit1 | .symBit0 => .sampleWord
  | .cmdClear | .cmdPrint _ | .cmdLinebreak => .commandByte

/-- The bits of a row, where the spec gives it any; `1x` is written `10`. -/
def Instr.bits : Instr → Option Byte
  | .ttInit _ | .ttTick | .ttNow | .ttElapsed _ | .ttUsToTicks _ | .ttWait _ _ _ | .edge _ => none
  | .capture => some 0x1
  | .wait1 => some 0x2
  | .sample1 => some 0x3
  | .recapture => some 0x4
  | .wait2 => some 0x5
  | .sample2 => some 0x6
  | .accum => some 0x7
  | .finWrap => some 0x8
  | .finDispatch => some 0x9
  | .finHome => some 0xA
  | .finDone => some 0xB
  | .symReset => some 0b10
  | .symBit1 => some 0b01
  | .symBit0 => some 0b00
  | .cmdClear => some 0x01
  | .cmdPrint b => some b
  | .cmdLinebreak => some 0x00

/-- The encoder: the code word of a row that has a bit pattern. -/
def encode (i : Instr) : Option CodeWord := i.bits.map fun b => ⟨i.format, b⟩

/-- The width of a format's words, where it has any (R14, R45, R48). -/
def Format.width? : Format → Option Nat
  | .phase => some 4
  | .sampleWord => some 2
  | .commandByte => some 8
  | .interface | .environmentEvent | .configurationFunction | .interruptEvent => none

/-- The code word the host means by `nbits` bits `w` of a table row. The table's bits carry no format: two bits are
read as a sample word, four as PHASE; eight as PHASE where they are 1..11 and as a command byte elsewhere (log 9). -/
def tableCodeWord (nbits w : Nat) : Option CodeWord :=
  if 2 ^ nbits ≤ w then none
  else
    match nbits with
    | 2 => some ⟨.sampleWord, BitVec.ofNat 8 w⟩
    | 4 => some ⟨.phase, BitVec.ofNat 8 w⟩
    | 8 => some ⟨if 1 ≤ w ∧ w ≤ 11 then .phase else .commandByte, BitVec.ofNat 8 w⟩
    | _ => none

/-- The instruction the decoder reads from a table row's bits. -/
def decodeTableWord (nbits w : Nat) : Option Instr :=
  match tableCodeWord nbits w with
  | none => none
  | some c =>
    match decode c with
    | .instr i => some i
    | .rejected _ => none

/-- The sample words a symbol-level statement expands to, in order (30_encoding.md R52); `1x` is written `10`. -/
def byteWords (v : Byte) : List (BitVec 2) :=
  (List.range bitsPerByte).map fun k => if v.getLsbD k then 0b01 else 0b00

/-- The encoding of a symbol-level statement (R52). DESIGN CHOICE (log 20): of a character of TEXT whose code is above
255, for which R52 gives no byte, the low 8 bits of the code are sent. -/
def SymbolStatement.words : SymbolStatement → List (BitVec 2)
  | .rst => [0b10]
  | .b1 => [0b01]
  | .b0 => [0b00]
  | .byte v => byteWords v
  | .text s => s.flatMap fun c => byteWords (BitVec.ofNat 8 c.toNat)

/-- The boot sequence of R99, with TCNT's draw at init. -/
def bootMoves (t : Tick) : List Move := [.initBegins, .initCompletes t, .sinkInit, .enableEdges]

/-- The moves of a tick-level statement (R52). -/
def TickStatement.moves : TickStatement → List Move
  | .envTick n => List.replicate n .tick
  | .envLine v => [.line v]
  | .blk n => List.replicate n .block
  | .boot t => bootMoves t

end Sys2Proof
end

