-- ==== Sys2Proof/Machine/State.lean ====
section
/-!
DEFINITION. The machine's state as plain data (10_state.md R13–R32), the reasons a step can stop, and the state
after hardware reset (R32, R97). The block has no memory, no register file and no program counter (R13, R14, R33).
-/
namespace Sys2Proof.Machine

/-- TSTATE, the timer's initialisation state (10_state.md R19). -/
inductive TimerState
  | uninit | initializing | ready
  deriving DecidableEq, Repr, Inhabited

structure State where
  /-- The configuration (R7, R17). No step changes it. -/
  cfg : Params
  /-- PHASE, the sequencer register (R14). -/
  phase : Phase
  /-- TSTATE (R19). -/
  tstate : TimerState
  /-- TCNT, the tick counter (R18). -/
  tcnt : Tick
  /-- T0, the captured reference tick (R20). -/
  t0 : Tick
  /-- BIT_COUNT (R21). -/
  bitCount : BitCount
  /-- RESULT, the partial byte (R22). -/
  result : Byte
  /-- COLUMN (R23). -/
  column : Column
  /-- ROW (R24). -/
  row : Row
  /-- SYM, the data symbol of the current activation (R25). -/
  sym : Bool
  /-- EDGE_EN (R26). -/
  edgeEn : Bool
  /-- EDGE_PENDING (R27). -/
  edgePending : Bool
  /-- LINE, `true` for high (R28). -/
  line : Bool
  /-- TRACE, the emitted sink events, oldest first (R29). -/
  trace : List SinkEvent
  /-- The model's own: the events emitted before the last hardware reset (R97; log 10). -/
  past : List SinkEvent
  /-- The model's own: the Tick the last timer query or conversion returned (R55, R56, R58; log 6). -/
  ttResult : Tick
  /-- The model's own: ticks since the block's last counter read (R7 MAX_TICKS_BETWEEN_POLLS; log 7). -/
  pollGap : Nat
  /-- The model's own: the moves to come, first one next (R5, R52; log 4). -/
  schedule : List Move
  /-- The model's own: how many moves came from the free schedule (log 4). -/
  drawn : Nat
  deriving DecidableEq, Repr

/-- The model faults: exactly those of 60_exceptions.md R83. The block itself raises no exception (R82). -/
inductive Fault
  /-- Raised by every counter read while TSTATE ≠ READY (R55, so R56, R59, R61, R62, R65, R66). Safe: the source
  gives such a read no meaning, and the machine stops. -/
  | timerNotReady
  /-- Raised by TT_INIT when `init()` begins while TSTATE = INITIALIZING (R53). Safe: the source calls it
  undefined, and the machine stops. -/
  | initReentered
  deriving DecidableEq, Repr

/-- Why the model has no meaning for something. None of these is a fault (R83). -/
inductive Refusal
  /-- Raised by `exec` for an instruction without a meaning yet: none is left. Safe. -/
  | notModelled (mnemonic : String)
  /-- The refusal of a configuration that breaks R8 (R83): by `configure`, before any step, and by the
  configuration-time TT_US_TO_TICKS of a duration whose conversion exceeds 255 (R58; log 8). No step raises it. Safe:
  R8 says that the source does not say what happens then. -/
  | configurationRefused
  deriving DecidableEq, Repr

/-- Hardware reset (R32, R97) of a machine with configuration `cfg`, with the values reset leaves in TCNT, T0 and
SYM: the spec lets them be any. -/
def State.resetWith (cfg : Params) (tcnt t0 : Tick) (sym : Bool) : State where
  cfg := cfg
  phase := .idle
  tstate := .uninit
  tcnt := tcnt
  t0 := t0
  bitCount := 0
  result := 0
  column := 0
  row := 0
  sym := sym
  edgeEn := false
  edgePending := false
  line := cfg.lineInit
  trace := []
  past := []
  ttResult := 0
  pollGap := 0
  schedule := []
  drawn := 0

/-- The machine right after reset. TCNT, T0 and SYM, which the spec leaves open, are 0 (DESIGN CHOICE, log 1). -/
def State.reset : State := State.resetWith Config.chip 0 0 false

end Sys2Proof.Machine
end

