-- ==== Sys2Proof/Machine/Operands.lean ====
section
/-!
DEFINITION. What a step reads: the two input ports (20_memory.md R34, R35) and the elapsed-time subtraction
(40_tick_timer.md R56). The block has no other operand form: no register
numbers, no addressing modes (10_state.md R13, 20_memory.md R38).
-/
namespace Sys2Proof.Machine

/-- TT_NOW's read (R55, R34): the counter's value to `k`, or the fault `timerNotReady`. -/
def withTick (s : State) (k : Tick → Host.Outcome State Fault Refusal) : Host.Outcome State Fault Refusal :=
  if s.tstate = .ready then k s.tcnt else .fault .timerNotReady

/-- SampleLine() (R35): the level of LINE, `true` for high. -/
def sampleLine (s : State) : Bool := s.line

/-- The result of TT_ELAPSED for a counter value `n` (R56): `n −₈ since`. -/
def elapsedTicks (n since : Tick) : Tick := n - since

/-- The document's branch form of the same (R56), on the 0..255 values. -/
def elapsedBranch (n since : Nat) : Nat := if since ≤ n then n - since else n + (maxTick + 1 - since)

end Sys2Proof.Machine
end

