-- ==== Sys2Proof/Machine/Flags.lean ====
section
/-!
DEFINITION. The block has no flags and no condition codes, and no operation sets one (10_state.md R16). What
steers the sequencer instead are these tests on its registers.
-/
namespace Sys2Proof.Machine

/-- `e >= N` of a poll (R59, R62, R66), on the 0..255 values (R9). -/
abbrev windowOver (e n : Tick) : Prop := n.toNat ≤ e.toNat

/-- `COLUMN >= 21` (R75). -/
abbrev State.lineFull (s : State) : Prop := lineWidth ≤ s.column.toNat

/-- A falling edge: a line step from high to low (R28, R60). -/
abbrev State.falls (s : State) (level : Bool) : Prop := s.line = true ∧ level = false

/-- Whether the block is in one of its two polling phases (R59). -/
abbrev State.polling (s : State) : Prop := s.phase = .wait1 ∨ s.phase = .wait2

/-- Whether one more tick keeps the bound between two polls (R7 MAX_TICKS_BETWEEN_POLLS, R59; log 7). -/
def State.tickAdmitted (s : State) : Bool :=
  match s.cfg.maxTicksBetweenPolls with
  | none => true
  | some g => decide (s.polling → s.pollGap < g)

end Sys2Proof.Machine
end

