-- ==== Sys2Proof/Machine/Ops.lean ====
section
/-!
DEFINITION. The shared operations on the state: the sequencer transfer, Emit (R36), the edge's entry (R60, R86)
and the handler's return (R69, R87), one poll (R59), the accumulator's and the cursor's updates (R64, R70–R79),
hardware reset as an event (R97), and the choice of the next move (R5, R52).
-/
namespace Sys2Proof.Machine

/-- `PHASE <- p` (R10, R14). -/
def State.goto (s : State) (p : Phase) : State := { s with phase := p }

/-- `Emit(ev)` (R36): append to TRACE. -/
def State.emit (s : State) (e : SinkEvent) : State := { s with trace := s.trace ++ [e] }

/-- The accumulator reset, (BIT_COUNT, RESULT) <- (0, 0) (R64, R79). -/
def State.clearAccumulator (s : State) : State := { s with bitCount := 0, result := 0 }

/-- (ROW, COLUMN) <- (r, 0) with the sink's cursor moved there (R75, R76, R78). -/
def State.moveToRow (s : State) (r : Row) : State := { s with row := r, column := 0 }.emit (.setCursor 0 r)

/-- (ROW + 1) mod 8 (R75, R78). -/
def State.nextRow (s : State) : Row := s.row + 1

/-- The block's counter read is over: no tick has passed since (log 7). -/
def State.polled (s : State) : State := { s with pollGap := 0 }

/-- EndActivation(), the handler's return (R69, R87). -/
def State.endActivation (s : State) : State :=
  if s.cfg.edgePolicy = .latchOne ∧ s.edgePending = true then { s with edgePending := false, phase := .capture }
  else { s with phase := .idle }

/-- A falling edge reaches the block (R60, R84, R86): the one interrupt's entry. It saves nothing. -/
def State.takeEdge (s : State) : State :=
  if s.edgeEn = false then s
  else if s.phase = .idle then { s with phase := .capture }
  else
    match s.cfg.edgePolicy with
    | .latchOne => { s with edgePending := true }
    | .drop => s

/-- One line-driver step (R28), the edge taken atomically with it (R60). -/
def State.driveLine (s : State) (level : Bool) : State :=
  if s.falls level then { s with line := level }.takeEdge else { s with line := level }

/-- TT_INIT (R53). Its second step belongs to an `init()` that has begun: with none in progress there is no such
step, and nothing changes (log 5). -/
def State.completeInit (s : State) (draw : Tick) : State :=
  if s.tstate = .initializing then { s with tcnt := draw, tstate := .ready } else s

/-- TT_TICK (R54): enabled only while TSTATE = READY and, where the configuration bounds the ticks between two
polls, within that bound; where it is not enabled nothing changes (log 7). -/
def State.tickOnce (s : State) : State :=
  if s.tstate = .ready ∧ s.tickAdmitted = true then { s with tcnt := s.tcnt + 1, pollGap := s.pollGap + 1 } else s

/-- A reference captured (R61, R65): T0 <- the tick read, then the window's phase. -/
def State.captureAt (s : State) (t : Tick) (p : Phase) : State := { s with t0 := t, phase := p }.polled

/-- The state after a poll that saw `t` (R59): leave to `next` when `n` ticks have elapsed since `ref`, else stay. -/
def State.pollAt (s : State) (t ref n : Tick) (stay next : Phase) : State :=
  (s.goto (if windowOver (elapsedTicks t ref) n then next else stay)).polled

/-- The merge of a bit into RESULT at position BIT_COUNT (R70, R71), LSB first (R37). -/
def State.mergeBit (s : State) (b : Bool) : State :=
  { s with result := if b then s.result ||| (1#8 <<< s.bitCount.toNat) else s.result }

/-- BIT_COUNT + 1, and the byte's completion at 8 (R72). -/
def State.countBit (s : State) : State :=
  let c := s.bitCount.toNat + 1
  if c < bitsPerByte then { s with bitCount := BitVec.ofNat 4 c }.endActivation
  else { s with bitCount := BitVec.ofNat 4 c, phase := .finWrap }

/-- The ACCUM step for a bit (R70–R72): merge, then count. -/
def State.accumulate (s : State) (b : Bool) : State := (s.mergeBit b).countBit

/-- The Reset symbol's action (R64). -/
def State.resetSymbol (s : State) : State := s.clearAccumulator.endActivation

/-- FIN_WRAP (R75). -/
def State.wrapLine (s : State) : State :=
  (if s.lineFull then s.moveToRow s.nextRow else s).goto .finDispatch

/-- CMD_CLEAR's FIN_DISPATCH step (R76). -/
def State.fullClear (s : State) : State := (s.emit .clear).goto .finHome

/-- CMD_CLEAR's FIN_HOME step (R76). -/
def State.homeCursor (s : State) : State := (s.moveToRow 0).goto .finDone

/-- CMD_PRINT (R77) of the byte `b`. -/
def State.printByte (s : State) (b : Byte) : State :=
  { s with column := s.column + 1 }.emit (.printChar b) |>.goto .finDone

/-- CMD_LINEBREAK (R78). -/
def State.breakLine (s : State) : State := (s.moveToRow s.nextRow).goto .finDone

/-- FIN_DISPATCH's action (R48, R76, R77, R78). -/
def State.perform (s : State) : Command → State
  | .clear => s.fullClear
  | .print b => s.printByte b
  | .lineBreak => s.breakLine

/-- FIN_DONE (R79). -/
def State.finishByte (s : State) : State := s.clearAccumulator.endActivation

/-- Boot's last step (R99 step 3). -/
def State.enableEdges (s : State) : State := { s with edgeEn := true }

/-- Hardware reset at any point (R97): the registers take their reset values, the events already emitted stay
emitted, and the agents outside the block go on (log 10). -/
def State.hardwareReset (s : State) (tcnt t0 : Tick) (sym : Bool) : State :=
  { State.resetWith s.cfg tcnt t0 sym with past := s.past ++ s.trace, schedule := s.schedule, drawn := s.drawn }

/-- The move that comes next: the schedule's first, or a free value where the schedule is empty (R5; log 4). -/
def State.nextMove (s : State) : Move :=
  match s.schedule with
  | m :: _ => m
  | [] => Config.freeMove s.drawn

/-- The state with that move taken off. -/
def State.takeMove (s : State) : State :=
  match s.schedule with
  | _ :: ms => { s with schedule := ms }
  | [] => { s with drawn := s.drawn + 1 }

/-- What a move comes to: an operation of the table, or a new state made by an agent outside it. -/
inductive Selected
  | run (i : Instr)
  | become (t : State)
  deriving DecidableEq, Repr

/-- What a move comes to in a state. The block's step is the row PHASE selects (R14); in IDLE it has none and only
waits (R11, R14; log 16). The sink's `init()` touches nothing of the block (R99 step 2). -/
def State.select (s : State) : Move → Selected
  | .block =>
    match s.phase.row with
    | some i => .run i
    | none => .become s
  | .tick => .run .ttTick
  | .line v => .run (.edge v)
  | .initBegins => .run (.ttInit .begins)
  | .initCompletes d => .run (.ttInit (.completes d))
  | .sinkInit => .become s
  | .enableEdges => .become s.enableEdges
  | .now => .run .ttNow
  | .elapsed t => .run (.ttElapsed t)
  | .hardwareReset a b c => .become (s.hardwareReset a b c)

/-- A machine for a configuration: refused before any step where R8 does not admit it, else right after reset. -/
def configure (c : RawConfig) (tcnt t0 : Tick) (sym : Bool) : Host.Outcome State Fault Refusal :=
  if c.wf then
    .next (State.resetWith
      { thr := BitVec.ofNat 8 c.thr
        tickRate := c.tickRate
        conversion := c.conversion
        constants := c.constants
        edgePolicy := c.edgePolicy
        lineInit := c.lineInit
        maxTicksBetweenPolls := c.maxTicksBetweenPolls
        debugPin := c.debugPin } tcnt t0 sym)
  else .refused .configurationRefused

/-- The state in which the block's next step performs the table row `i`: PHASE holds the row's own value; a sample
word stands where the block reads it (LINE at SAMPLE1, SYM at ACCUM), a command byte in RESULT at FIN_DISPATCH
(R14, R45, R48; log 9). The rows without a bit pattern are not placed. -/
def State.placeInstr (s : State) : Instr → State
  | .capture => s.goto .capture
  | .wait1 => s.goto .wait1
  | .sample1 => s.goto .sample1
  | .recapture => s.goto .recapture
  | .wait2 => s.goto .wait2
  | .sample2 => s.goto .sample2
  | .accum => s.goto .accum
  | .finWrap => s.goto .finWrap
  | .finDispatch => s.goto .finDispatch
  | .finHome => s.goto .finHome
  | .finDone => s.goto .finDone
  | .symReset => { s.goto .sample1 with line := true }
  | .symBit1 => { s.goto .accum with sym := true }
  | .symBit0 => { s.goto .accum with sym := false }
  | .cmdClear => { s.goto .finDispatch with result := clearByte }
  | .cmdPrint b => { s.goto .finDispatch with result := b }
  | .cmdLinebreak => { s.goto .finDispatch with result := lineBreakByte }
  | .ttInit _ | .ttTick | .ttNow | .ttElapsed _ | .ttUsToTicks _ | .ttWait _ _ _ | .edge _ => s

/-- The block moves next. -/
def State.blockNext (s : State) : State := { s with schedule := .block :: s.schedule }

end Sys2Proof.Machine
end

