-- ==== Sys2Proof/Machine/Accumulator.lean ====
section
/-!
DEFINITION. The bit/byte accumulator (42_accumulator.md R70–R72).
-/
namespace Sys2Proof.Machine

/-- ACCUM (R70–R72): the bit is SYM. -/
def execAccum (s : State) : Host.Outcome State Fault Refusal := .next (s.accumulate s.sym)

/-- SYM_BIT1 (R70, then R72). -/
def execSymBit1 (s : State) : Host.Outcome State Fault Refusal := .next (s.accumulate true)

/-- SYM_BIT0 (R71, then R72). -/
def execSymBit0 (s : State) : Host.Outcome State Fault Refusal := .next (s.accumulate false)

end Sys2Proof.Machine
end

