-- ==== Sys2Proof/Machine/Classifier.lean ====
section
/-!
DEFINITION. The pulse-width classifier (41_classifier.md R60–R69).
-/
namespace Sys2Proof.Machine

/-- EDGE (R60): a line-driver step. -/
def execEdge (level : Bool) (s : State) : Host.Outcome State Fault Refusal := .next (s.driveLine level)

/-- CAPTURE (R61). -/
def execCapture (s : State) : Host.Outcome State Fault Refusal := withTick s fun n => .next (s.captureAt n .wait1)

/-- WAIT1 (R62): one poll of window 1. -/
def execWait1 (s : State) : Host.Outcome State Fault Refusal :=
  withTick s fun n => .next (s.pollAt n s.t0 s.cfg.thr .wait1 .sample1)

/-- SAMPLE1 (R63): a high line is the Reset symbol, acted on in this same step (R64). -/
def execSample1 (s : State) : Host.Outcome State Fault Refusal :=
  .next (if sampleLine s then s.resetSymbol else s.goto .recapture)

/-- SYM_RESET (R64). -/
def execSymReset (s : State) : Host.Outcome State Fault Refusal := .next s.resetSymbol

/-- RECAPTURE (R65). -/
def execRecapture (s : State) : Host.Outcome State Fault Refusal := withTick s fun n => .next (s.captureAt n .wait2)

/-- WAIT2 (R66): one poll of window 2, of the same length (R6 BIT_WINDOW_TICKS). -/
def execWait2 (s : State) : Host.Outcome State Fault Refusal :=
  withTick s fun n => .next (s.pollAt n s.t0 s.cfg.thr .wait2 .sample2)

/-- SAMPLE2 (R67). -/
def execSample2 (s : State) : Host.Outcome State Fault Refusal := .next ({ s with sym := sampleLine s }.goto .accum)

end Sys2Proof.Machine
end

