-- ==== Sys2Proof/Machine/CommandDecoder.lean ====
section
/-!
DEFINITION. The command decoder and cursor (43_command_decoder.md R75–R79).
-/
namespace Sys2Proof.Machine

/-- FIN_WRAP (R75). -/
def execFinWrap (s : State) : Host.Outcome State Fault Refusal := .next s.wrapLine

/-- FIN_DISPATCH (R48): the action RESULT selects. -/
def execFinDispatch (s : State) : Host.Outcome State Fault Refusal := .next (s.perform (decodeCommand s.result))

/-- CMD_CLEAR (R76), its FIN_DISPATCH step; FIN_HOME is the next. -/
def execCmdClear (s : State) : Host.Outcome State Fault Refusal := .next s.fullClear

/-- FIN_HOME (R76), CMD_CLEAR's second step. -/
def execFinHome (s : State) : Host.Outcome State Fault Refusal := .next s.homeCursor

/-- CMD_PRINT (R77). -/
def execCmdPrint (b : Byte) (s : State) : Host.Outcome State Fault Refusal := .next (s.printByte b)

/-- CMD_LINEBREAK (R78). -/
def execCmdLinebreak (s : State) : Host.Outcome State Fault Refusal := .next s.breakLine

/-- FIN_DONE (R79). -/
def execFinDone (s : State) : Host.Outcome State Fault Refusal := .next s.finishByte

end Sys2Proof.Machine
end

