-- ==== Sys2Proof/Machine/TickTimer.lean ====
section
/-!
DEFINITION. The tick timer's operations (40_tick_timer.md R53–R59).
-/
namespace Sys2Proof.Machine

/-- TT_INIT (R53). Beginning while INITIALIZING is the fault `initReentered`. -/
def execTtInit (half : InitStep) (s : State) : Host.Outcome State Fault Refusal :=
  match half with
  | .begins => if s.tstate = .initializing then .fault .initReentered else .next { s with tstate := .initializing }
  | .completes draw => .next (s.completeInit draw)

/-- TT_TICK (R54). -/
def execTtTick (s : State) : Host.Outcome State Fault Refusal := .next s.tickOnce

/-- TT_NOW (R55). -/
def execTtNow (s : State) : Host.Outcome State Fault Refusal := withTick s fun n => .next { s with ttResult := n }

/-- TT_ELAPSED (R56): one counter read. -/
def execTtElapsed (since : Tick) (s : State) : Host.Outcome State Fault Refusal :=
  withTick s fun n => .next { s with ttResult := elapsedTicks n since }

/-- TT_US_TO_TICKS (R58), at configuration time: no move of the schedule performs it. A configuration that converts a
duration beyond 255 is refused (R8; log 8). -/
def execTtUsToTicks (us : Nat) (s : State) : Host.Outcome State Fault Refusal :=
  let n := s.cfg.conversion.ticks us
  if n ≤ maxTick then .next { s with ttResult := BitVec.ofNat 8 n } else .refused .configurationRefused

/-- TT_WAIT (R59): one poll. -/
def execTtWait (ref n : Tick) (next : Phase) (s : State) : Host.Outcome State Fault Refusal :=
  withTick s fun t => .next (s.pollAt t ref n s.phase next)

end Sys2Proof.Machine
end

