-- ==== Sys2Proof/Machine/Dispatch.lean ====
section
/-!
DEFINITION. One arm per row of spec/opcode_table.json, each a direct call of the row's meaning.
-/
namespace Sys2Proof.Machine

def exec (i : Instr) (s : State) : Host.Outcome State Fault Refusal :=
  match i with
  | .ttInit half => Sys2Proof.Machine.execTtInit half s
  | .ttTick => Sys2Proof.Machine.execTtTick s
  | .ttNow => Sys2Proof.Machine.execTtNow s
  | .ttElapsed since => Sys2Proof.Machine.execTtElapsed since s
  | .ttUsToTicks us => Sys2Proof.Machine.execTtUsToTicks us s
  | .ttWait ref n next => Sys2Proof.Machine.execTtWait ref n next s
  | .edge level => Sys2Proof.Machine.execEdge level s
  | .capture => Sys2Proof.Machine.execCapture s
  | .wait1 => Sys2Proof.Machine.execWait1 s
  | .sample1 => Sys2Proof.Machine.execSample1 s
  | .recapture => Sys2Proof.Machine.execRecapture s
  | .wait2 => Sys2Proof.Machine.execWait2 s
  | .sample2 => Sys2Proof.Machine.execSample2 s
  | .accum => Sys2Proof.Machine.execAccum s
  | .symReset => Sys2Proof.Machine.execSymReset s
  | .symBit1 => Sys2Proof.Machine.execSymBit1 s
  | .symBit0 => Sys2Proof.Machine.execSymBit0 s
  | .finWrap => Sys2Proof.Machine.execFinWrap s
  | .finDispatch => Sys2Proof.Machine.execFinDispatch s
  | .cmdClear => Sys2Proof.Machine.execCmdClear s
  | .finHome => Sys2Proof.Machine.execFinHome s
  | .cmdPrint b => Sys2Proof.Machine.execCmdPrint b s
  | .cmdLinebreak => Sys2Proof.Machine.execCmdLinebreak s
  | .finDone => Sys2Proof.Machine.execFinDone s

end Sys2Proof.Machine
end

