-- ==== Sys2Proof/Machine/Step.lean ====
section
/-!
DEFINITION. One step of the machine: one step of one agent (00_scope.md R5, R40). It takes the next move off and
performs what the move comes to.
-/
namespace Sys2Proof.Machine

/-- One step. -/
def step (s : State) : Host.Outcome State Fault Refusal :=
  match s.takeMove.select s.nextMove with
  | .run i => exec i s.takeMove
  | .become t => .next t

/-- The block is to move next, with the table row's instruction placed where it reads it (log 9). Bits that no row
has leave the state as it is: the machine has nowhere to hold them (PHASE 12..15 are unused, R14). -/
def State.withFetchWord (s : State) (nbits w : Nat) : State :=
  match decodeTableWord nbits w with
  | some i => (s.placeInstr i).blockNext
  | none => s

end Sys2Proof.Machine
end

