-- ==== Sys2Proof/Machine/Stimulus.lean ====
section
/-!
DEFINITION. The symbol level of the stimulus notation (30_encoding.md R52): what one whole activation, from IDLE to
EndActivation with no other falling edge inside it, does to the registers that R108 lets a claim observe.
-/
namespace Sys2Proof.Machine

/-- One finalize (R75–R79): wrap, the command, FIN_HOME where the command was the clear, FIN_DONE. -/
def State.finalizeByte (s : State) : State :=
  let d := s.wrapLine.perform (decodeCommand s.result)
  (if d.phase = .finHome then d.homeCursor else d).finishByte

/-- One activation that classified the symbol (R63, R64, R70–R72, R75–R79). -/
def State.symbolLevel (s : State) : Symbol → State
  | .reset => s.resetSymbol
  | .bit b =>
    let t := s.accumulate b
    if t.phase = .finWrap then t.finalizeByte else t

/-- A symbol-level program, given as its sample words (R52). -/
def State.runWords (s : State) (ws : List (BitVec 2)) : State := ws.foldl (fun t w => t.symbolLevel (decodeSample w)) s

/-- One activation at tick level that delivers the samples `s1`, `s2` (R52): the edge; `n1` ticks and one poll of
window 1; the first sample; and, where it is low, `n2` ticks and one poll of window 2, the second sample and the
steps of a finalize. At the end the line is released. -/
def deliver (n1 n2 : Nat) (s1 s2 : Bool) : List Move :=
  [.line false, .block] ++ List.replicate n1 .tick ++ [.block, .line s1, .block] ++
    (if s1 then []
     else [.block] ++ List.replicate n2 .tick ++ [.block, .line s2, .block, .block] ++ List.replicate 4 .block) ++
    [.line true]

end Sys2Proof.Machine
end

