-- ==== Sys2Proof/Safety.lean ====
section
/-!
DEFINITION. The terms claims are stated in: what may be observed (70_reset_and_hazards.md R108), the state
invariants (10_state.md R31 and what an induction needs beside them), PHASE's transitions (R15), a booted machine.
-/
namespace Sys2Proof

/-- Whether a phase belongs to a finalize, where BIT_COUNT holds 8 (R21, R72). -/
def Phase.finalizing : Phase → Bool
  | .finWrap | .finDispatch | .finHome | .finDone => true
  | .idle | .capture | .wait1 | .sample1 | .recapture | .wait2 | .sample2 | .accum => false

/-- The transitions of PHASE that a block step or the return can make (R15). -/
def Phase.successors : Phase → List Phase
  | .idle => [.idle]
  | .capture => [.wait1]
  | .wait1 => [.wait1, .sample1]
  | .sample1 => [.recapture, .idle, .capture]
  | .recapture => [.wait2]
  | .wait2 => [.wait2, .sample2]
  | .sample2 => [.accum]
  | .accum => [.idle, .capture, .finWrap]
  | .finWrap => [.finDispatch]
  | .finDispatch => [.finHome, .finDone]
  | .finHome => [.finDone]
  | .finDone => [.idle, .capture]

/-- The events the block may emit (R49): CLEAR, SETCURSOR(0, r), PRINTCHAR(b) with b in 0x02..0xFF. -/
def SinkEvent.emittable : SinkEvent → Bool
  | .init => false
  | .clear => true
  | .setCursor col _ => col == 0
  | .printChar b => 2 ≤ b.toNat

namespace Machine

/-- `k` steps, stopping at the first fault or refusal: one finite schedule of all agents (R40). -/
def run : Nat → State → Host.Outcome State Fault Refusal
  | 0, s => .next s
  | k + 1, s =>
    match step s with
    | .next t => run k t
    | .fault r => .fault r
    | .refused r => .refused r

/-- A run is quiescent when PHASE = IDLE and EDGE_PENDING = 0 (R108). -/
abbrev State.Quiescent (s : State) : Prop := s.phase = .idle ∧ s.edgePending = false

/-- What a claim may observe of a quiescent state (R108). -/
def State.observe (s : State) : List SinkEvent × BitCount × Byte × Column × Row :=
  (s.trace, s.bitCount, s.result, s.column, s.row)

/-- A booted machine waiting for an edge, no edge latched (R99): what R52 starts a symbol from. -/
abbrev State.Armed (s : State) : Prop := s.Quiescent ∧ s.edgeEn = true ∧ s.tstate = .ready

/-- The accumulator: BIT_COUNT is 8 exactly within a finalize; outside one it is at most 7, and RESULT's bits at and
above it are 0 (R21, R31 items 1 and 2). -/
abbrev State.AccInv (s : State) : Prop :=
  (s.phase.finalizing = true → s.bitCount = 8) ∧
  (s.phase.finalizing = false → s.bitCount.toNat ≤ 7 ∧ s.result.toNat < 2 ^ s.bitCount.toNat)

/-- The cursor: COLUMN is at most 21, and at most 20 at FIN_DISPATCH (R23, R31 item 3, R80 item 1). ROW's range is its
width. -/
abbrev State.CursorInv (s : State) : Prop :=
  s.column.toNat ≤ 21 ∧ (s.phase = .finDispatch → s.column.toNat ≤ 20)

/-- The edge latch: constantly 0 under Drop (R27), 0 in IDLE, and no activation while the source is disabled (R26,
R60, R69). -/
abbrev State.EdgeInv (s : State) : Prop :=
  (s.cfg.edgePolicy = .drop → s.edgePending = false) ∧ (s.phase = .idle → s.edgePending = false) ∧
  (s.edgeEn = false → s.phase = .idle)

/-- The output: only events the block may emit (R49). FIN_HOME is reached from the clear command alone (R76). -/
abbrev State.TraceInv (s : State) : Prop :=
  s.trace.all SinkEvent.emittable = true ∧ s.past.all SinkEvent.emittable = true ∧
  (s.phase = .finHome → s.result = clearByte)

/-- The bound between two polls, where the configuration has one (R7, R59). -/
abbrev State.PollInv (s : State) : Prop :=
  ∀ g ∈ s.cfg.maxTicksBetweenPolls, s.polling → s.pollGap ≤ g

/-- What every step keeps. -/
abbrev State.Inv (s : State) : Prop := s.AccInv ∧ s.CursorInv ∧ s.EdgeInv ∧ s.TraceInv ∧ s.PollInv

end Machine
end Sys2Proof
end

