-- ==== Sys2Proof/Certificates/Slice0/Obligations.lean ====
section
/-!
DEFINITION. The statements for the provers. Each docstring names the rule of spec/ it formalises. The fields
`ttResult`, `pollGap`, `past`, `schedule` and `drawn` are the model's own (log 4, 6, 7, 10).
-/
open Sys2Proof Sys2Proof.Machine

/-! ## Tick timer -/

/-- R53, both steps: beginning while INITIALIZING faults; otherwise it begins, from UNINIT or READY; the second step
takes the draw, whatever it is, and makes the timer READY. Nothing else changes. That a second step with no init in
progress changes nothing is the model's (log 5). -/
def Obligations.TtInitBeginsAndCompletes : Prop :=
  ∀ (s : State) (draw : Tick),
    (s.tstate = .initializing → exec (.ttInit .begins) s = .fault .initReentered) ∧
    (s.tstate ≠ .initializing →
      ∃ u, exec (.ttInit .begins) s = .next u ∧ u = { s with tstate := .initializing } ∧
        exec (.ttInit (.completes draw)) u = .next { s with tstate := .ready, tcnt := draw }) ∧
    (s.tstate ≠ .initializing → exec (.ttInit (.completes draw)) s = .next s)

/-- R54: a tick adds one modulo 256 while the timer is READY and, where the configuration bounds the ticks between two
polls (D26, log 7), the bound leaves room; otherwise nothing changes. -/
def Obligations.TtTickAddsOneModulo256 : Prop :=
  ∀ s : State,
    (s.tstate = .ready →
      (∀ g ∈ s.cfg.maxTicksBetweenPolls, s.phase = .wait1 ∨ s.phase = .wait2 → s.pollGap < g) →
      exec .ttTick s =
        .next { s with tcnt := BitVec.ofNat 8 ((s.tcnt.toNat + 1) % 256), pollGap := s.pollGap + 1 }) ∧
    (s.tstate ≠ .ready → exec .ttTick s = .next s) ∧
    (∀ g ∈ s.cfg.maxTicksBetweenPolls, s.phase = .wait1 ∨ s.phase = .wait2 → g ≤ s.pollGap →
      exec .ttTick s = .next s)

/-- R55: a caller's query returns TCNT while the timer is READY and faults otherwise. That the result stands in
`ttResult` is the model's (log 6). -/
def Obligations.TtNowReturnsCounter : Prop :=
  ∀ s : State,
    (s.tstate = .ready → exec .ttNow s = .next { s with ttResult := s.tcnt }) ∧
    (s.tstate ≠ .ready → exec .ttNow s = .fault .timerNotReady)

/-- R56: the result is the cyclic distance, which the document's branch form computes too; the query faults while the
timer is not READY. That the result stands in `ttResult` is the model's (log 6). -/
def Obligations.TtElapsedIsCyclicDistance : Prop :=
  ∀ (s : State) (since : Tick),
    (s.tstate = .ready →
      ∃ e : Tick, exec (.ttElapsed since) s = .next { s with ttResult := e } ∧
        e.toNat = (s.tcnt.toNat + (256 - since.toNat)) % 256 ∧
        e.toNat = elapsedBranch s.tcnt.toNat since.toNat) ∧
    (s.tstate ≠ .ready → exec (.ttElapsed since) s = .fault .timerNotReady)

/-- R57 item 2: after `d` tick steps, with no bound between polls, the elapsed query sees `d` modulo 256. -/
def Obligations.ElapsedCountsTicksModulo256 : Prop :=
  ∀ (s : State) (d : Nat) (rest : List Move),
    s.tstate = .ready → s.cfg.maxTicksBetweenPolls = none →
    s.schedule = List.replicate d .tick ++ .elapsed s.tcnt :: rest →
    ∃ t, run (d + 1) s = .next t ∧ t.ttResult.toNat = d % 256 ∧ t.schedule = rest ∧ t.phase = s.phase

/-- R58, R8: the conversion's result where it fits a Tick; where it does not, the configuration is refused. That the
result stands in `ttResult` (log 6), and that a conversion the configuration does not list is refused too (log 8), is the
model's. -/
def Obligations.TtUsToTicksFitsOrIsRefused : Prop :=
  ∀ (s : State) (us : Nat),
    (s.cfg.conversion.ticks us ≤ 255 →
      ∃ r : Tick, exec (.ttUsToTicks us) s = .next { s with ttResult := r } ∧
        r.toNat = s.cfg.conversion.ticks us) ∧
    (255 < s.cfg.conversion.ticks us → exec (.ttUsToTicks us) s = .refused .configurationRefused)

/-- R8, R58: no conversion that an admitted configuration lists is refused, in the machine made for it or in any state
that machine reaches (the configuration never changes). The result is the configuration's own function's (log 6). -/
def Obligations.AdmittedConstantsConvert : Prop :=
  ∀ (c : RawConfig) (tcnt t0 : Tick) (sym : Bool) (s t : State) (k us : Nat) (ms : List Move),
    configure c tcnt t0 sym = .next s → run k { s with schedule := ms } = .next t → us ∈ c.constants →
    ∃ r : Tick, exec (.ttUsToTicks us) t = .next { t with ttResult := r } ∧ r.toNat = c.conversion.ticks us

/-- R59, one poll: leave to the next phase when `n` ticks have elapsed since `ref`, else stay; fault while not READY.
For `n = 0` it leaves at once. -/
def Obligations.TtWaitPollsOnce : Prop :=
  ∀ (s : State) (ref n : Tick) (next : Phase),
    (s.tstate = .ready →
      exec (.ttWait ref n next) s =
        .next { s with
          phase := if n.toNat ≤ (s.tcnt.toNat + (256 - ref.toNat)) % 256 then next else s.phase
          pollGap := 0 }) ∧
    (s.tstate = .ready → n = 0 → exec (.ttWait ref n next) s = .next { s with phase := next, pollGap := 0 }) ∧
    (s.tstate ≠ .ready → exec (.ttWait ref n next) s = .fault .timerNotReady)

/-- The table's note on TT_WAIT: WAIT1 and WAIT2 are its polls, with T0 and THR. -/
def Obligations.WindowsAreTtWaits : Prop :=
  ∀ s : State,
    (s.phase = .wait1 → exec .wait1 s = exec (.ttWait s.t0 s.cfg.thr .sample1) s) ∧
    (s.phase = .wait2 → exec .wait2 s = exec (.ttWait s.t0 s.cfg.thr .sample2) s)

/-- R59, the bounded wait: a poll in window 1 saw `e < THR`, then at most `g ≤ 256 − THR` ticks pass before the next.
That poll leaves exactly when the true count `e + k` has reached THR, and the count is then below THR + g. -/
def Obligations.BoundedGapLeavesWindowOnTime : Prop :=
  ∀ (s : State) (g k : Nat) (rest : List Move),
    s.tstate = .ready → s.phase = .wait1 → s.cfg.maxTicksBetweenPolls = none →
    (s.tcnt - s.t0).toNat < s.cfg.thr.toNat → k ≤ g → g + s.cfg.thr.toNat ≤ 256 →
    s.schedule = List.replicate k .tick ++ .block :: rest →
    ∃ t, run (k + 1) s = .next t ∧
      (t.phase = .sample1 ↔ s.cfg.thr.toNat ≤ (s.tcnt - s.t0).toNat + k) ∧
      (t.phase = .sample1 ∨ t.phase = .wait1) ∧
      (t.phase = .sample1 → (s.tcnt - s.t0).toNat + k < s.cfg.thr.toNat + g)

/-- R59, R95 item 1: with no tick step the window never leaves, however many polls are made. -/
def Obligations.NoTicksNoExit : Prop :=
  ∀ (s : State) (k : Nat) (rest : List Move),
    s.tstate = .ready → s.phase = .wait1 ∨ s.phase = .wait2 → (s.tcnt - s.t0).toNat < s.cfg.thr.toNat →
    s.schedule = List.replicate k .block ++ rest →
    ∃ t, run k s = .next t ∧ t.phase = s.phase ∧ t.schedule = rest ∧ t.tcnt = s.tcnt ∧ t.t0 = s.t0

/-! ## Classifier -/

/-- R60: a line step; the falling edge is ignored while EDGE_EN = 0, starts an activation in IDLE, and otherwise is
held under LatchOne and lost under Drop. -/
def Obligations.LineStepDeliversEdge : Prop :=
  ∀ (s : State) (v : Bool),
    exec (.edge v) s = .next
      (if s.line = true ∧ v = false ∧ s.edgeEn = true then
        (if s.phase = .idle then { s with line := v, phase := .capture }
         else if s.cfg.edgePolicy = .latchOne then { s with line := v, edgePending := true }
         else { s with line := v })
       else { s with line := v })

/-- R61: T0 takes the counter and window 1 begins; a counter that is not READY faults. (`g`, here and in the next three,
is the model's own poll gap, of which they say nothing.) -/
def Obligations.CaptureStartsWindowOne : Prop :=
  ∀ s : State,
    (s.tstate = .ready → ∃ g, exec .capture s = .next { s with t0 := s.tcnt, phase := .wait1, pollGap := g }) ∧
    (s.tstate ≠ .ready → exec .capture s = .fault .timerNotReady)

/-- R65: T0 takes a second read and window 2 begins; a counter that is not READY faults. -/
def Obligations.RecaptureStartsWindowTwo : Prop :=
  ∀ s : State,
    (s.tstate = .ready → ∃ g, exec .recapture s = .next { s with t0 := s.tcnt, phase := .wait2, pollGap := g }) ∧
    (s.tstate ≠ .ready → exec .recapture s = .fault .timerNotReady)

/-- R62: one poll of window 1, on the cyclic distance from T0; the line is not read. -/
def Obligations.WaitOnePollsWindow : Prop :=
  ∀ s : State,
    (s.tstate = .ready →
      ∃ g, exec .wait1 s = .next { s with
        phase := if s.cfg.thr.toNat ≤ (s.tcnt.toNat + (256 - s.t0.toNat)) % 256 then .sample1 else .wait1
        pollGap := g }) ∧
    (s.tstate ≠ .ready → exec .wait1 s = .fault .timerNotReady)

/-- R66: one poll of window 2, of the same length. -/
def Obligations.WaitTwoPollsWindow : Prop :=
  ∀ s : State,
    (s.tstate = .ready →
      ∃ g, exec .wait2 s = .next { s with
        phase := if s.cfg.thr.toNat ≤ (s.tcnt.toNat + (256 - s.t0.toNat)) % 256 then .sample2 else .wait2
        pollGap := g }) ∧
    (s.tstate ≠ .ready → exec .wait2 s = .fault .timerNotReady)

/-- R69: the return clears a latched edge and goes to CAPTURE under LatchOne; otherwise it goes to IDLE. Nothing else
changes. -/
def Obligations.ReturnArmsOrTakesLatchedEdge : Prop :=
  ∀ s : State,
    (s.cfg.edgePolicy = .latchOne → s.edgePending = true →
      s.endActivation = { s with edgePending := false, phase := .capture }) ∧
    (s.cfg.edgePolicy = .drop ∨ s.edgePending = false → s.endActivation = { s with phase := .idle })

/-- R63, R64: a high line at sample 1 is the Reset symbol, acted on in the same step: the accumulator is cleared and the
activation ends; a low line goes on to RECAPTURE. SYM_RESET itself is that action. -/
def Obligations.SampleOneClassifiesReset : Prop :=
  ∀ s : State,
    exec .symReset s = .next ({ s with bitCount := 0, result := 0 } : State).endActivation ∧
    (s.line = true → exec .sample1 s = .next ({ s with bitCount := 0, result := 0 } : State).endActivation) ∧
    (s.line = false → exec .sample1 s = .next { s with phase := .recapture })

/-- R67: SYM takes the level of the line and the accumulator follows. -/
def Obligations.SampleTwoLatchesSymbol : Prop :=
  ∀ s : State, exec .sample2 s = .next { s with sym := s.line, phase := .accum }

/-! ## Accumulator -/

/-- R70, R72: a 1 bit sets bit BIT_COUNT of RESULT and no other; then the count goes up, ending the activation below 8
and going to FIN_WRAP at 8 or more. What it says of a count above 7 before the step, which no run reaches, is no rule of
the spec but the model's choice (log 14). -/
def Obligations.BitOneSetsItsPosition : Prop :=
  ∀ s : State, ∃ r : Byte,
    (∀ j, j < 8 → r.getLsbD j = (s.result.getLsbD j || decide (j = s.bitCount.toNat))) ∧
    (s.bitCount.toNat + 1 < 8 →
      exec .symBit1 s = .next
        ({ s with result := r, bitCount := BitVec.ofNat 4 (s.bitCount.toNat + 1) } : State).endActivation) ∧
    (8 ≤ s.bitCount.toNat + 1 →
      exec .symBit1 s = .next
        { s with result := r, bitCount := BitVec.ofNat 4 (s.bitCount.toNat + 1), phase := .finWrap })

/-- R71, R72: a 0 bit leaves RESULT unchanged; the count goes up in the same way. What it says of a count
above 7 before the step, which no run reaches, is no rule of the spec but the model's choice (log 14). -/
def Obligations.BitZeroOnlyCounts : Prop :=
  ∀ s : State,
    (s.bitCount.toNat + 1 < 8 →
      exec .symBit0 s = .next ({ s with bitCount := BitVec.ofNat 4 (s.bitCount.toNat + 1) } : State).endActivation) ∧
    (8 ≤ s.bitCount.toNat + 1 →
      exec .symBit0 s = .next { s with bitCount := BitVec.ofNat 4 (s.bitCount.toNat + 1), phase := .finWrap })

/-- R70–R72: the ACCUM step is SYM_BIT1 where SYM is 1 and SYM_BIT0 where it is 0, and it answers a next state. That
the count wraps from 15 to 0, which no run reaches, is the model's choice (log 14). -/
def Obligations.AccumFollowsSym : Prop :=
  ∀ s : State,
    (s.sym = true → exec .accum s = exec .symBit1 s) ∧ (s.sym = false → exec .accum s = exec .symBit0 s) ∧
    ∃ t, exec .accum s = .next t ∧ t.bitCount = BitVec.ofNat 4 (s.bitCount.toNat + 1) ∧ t.trace = s.trace ∧
      t.column = s.column ∧ t.row = s.row

/-- R70, R31 item 2: within the accumulator's invariant a 1 bit adds exactly 2^BIT_COUNT to RESULT. -/
def Obligations.BitOneAddsPowerOfTwo : Prop :=
  ∀ s t : State, s.AccInv → s.phase.finalizing = false → exec .symBit1 s = .next t →
    t.result.toNat = s.result.toNat + 2 ^ s.bitCount.toNat

/-- R73, R47: eight bits from a cleared accumulator, least significant first, leave exactly that byte in RESULT at
FIN_WRAP, with nothing emitted on the way. -/
def Obligations.EightBitsAssembleTheByte : Prop :=
  ∀ (s : State) (v : Byte), s.bitCount = 0 → s.result = 0 →
    ∃ t, (List.range 8).foldl (fun u k => u.accumulate (v.getLsbD k)) s = t ∧
      t.result = v ∧ t.bitCount = 8 ∧ t.phase = .finWrap ∧ t.trace = s.trace ∧ t.column = s.column ∧ t.row = s.row

/-! ## Command decoder -/

/-- R75: with COLUMN at 21 or more the row advances modulo 8, COLUMN is 0 and the sink's cursor is moved there; below
that only PHASE changes. -/
def Obligations.FinWrapWrapsFullLine : Prop :=
  ∀ s : State,
    (21 ≤ s.column.toNat →
      exec .finWrap s = .next { s with
        row := BitVec.ofNat 3 ((s.row.toNat + 1) % 8)
        column := 0
        trace := s.trace ++ [.setCursor 0 (BitVec.ofNat 3 ((s.row.toNat + 1) % 8))]
        phase := .finDispatch }) ∧
    (s.column.toNat ≤ 20 → exec .finWrap s = .next { s with phase := .finDispatch })

/-- R48: FIN_DISPATCH performs the row that RESULT selects, and RESULT selects exactly one. -/
def Obligations.FinDispatchSelectsCommand : Prop :=
  ∀ s : State,
    (s.result.toNat = 1 → exec .finDispatch s = exec .cmdClear s) ∧
    (s.result.toNat = 0 → exec .finDispatch s = exec .cmdLinebreak s) ∧
    (2 ≤ s.result.toNat → exec .finDispatch s = exec (.cmdPrint s.result) s) ∧
    ∃ t, exec .finDispatch s = .next t ∧ (t.phase = .finHome ∨ t.phase = .finDone)

/-- R76: the clear command's two steps. -/
def Obligations.ClearEmitsClearThenHomes : Prop :=
  ∀ s : State,
    exec .cmdClear s = .next { s with trace := s.trace ++ [.clear], phase := .finHome } ∧
    exec .finHome s = .next { s with trace := s.trace ++ [.setCursor 0 0], row := 0, column := 0, phase := .finDone }

/-- R77: the byte goes to the sink as it is and COLUMN goes up by one; ROW and the accumulator stay.
R77 has COLUMN at most 20 and a byte from 0x02 up. What it says of a larger COLUMN, which wraps from 31 to 0, and of the
ill-formed bytes 0x00 and 0x01 is no rule of the spec but the model's choice (log 14). -/
def Obligations.PrintEmitsByteAndAdvances : Prop :=
  ∀ (s : State) (b : Byte),
    exec (.cmdPrint b) s = .next { s with
      trace := s.trace ++ [.printChar b]
      column := BitVec.ofNat 5 (s.column.toNat + 1)
      phase := .finDone }

/-- R78: the row advances modulo 8, COLUMN is 0 and the sink's cursor is moved there. -/
def Obligations.LineBreakAdvancesRow : Prop :=
  ∀ s : State,
    exec .cmdLinebreak s = .next { s with
      row := BitVec.ofNat 3 ((s.row.toNat + 1) % 8)
      column := 0
      trace := s.trace ++ [.setCursor 0 (BitVec.ofNat 3 ((s.row.toNat + 1) % 8))]
      phase := .finDone }

/-- R79: the accumulator is (0, 0) and the activation ends. -/
def Obligations.FinDoneClearsAccumulator : Prop :=
  ∀ s : State, exec .finDone s = .next ({ s with bitCount := 0, result := 0 } : State).endActivation

/-- R81: from FIN_WRAP the block's own steps (four for the clear command, three otherwise) emit exactly the table's
events, leave the table's cursor, clear the accumulator and return. `w` is 1 when the wrap happens and 0 otherwise. -/
def Obligations.FinalizeEmitsTableEvents : Prop :=
  ∀ (s : State) (rest : List Move) (w : Nat),
    s.phase = .finWrap → s.column.toNat ≤ 21 → w = (if s.column.toNat = 21 then 1 else 0) →
    s.schedule = List.replicate (if s.result = 0x01 then 4 else 3) .block ++ rest →
    ∃ t, run (if s.result = 0x01 then 4 else 3) s = .next t ∧ t.schedule = rest ∧
      t.bitCount = 0 ∧ t.result = 0 ∧ (t.phase = .idle ∨ t.phase = .capture) ∧
      (let wrap : List SinkEvent := if w = 1 then [.setCursor 0 (BitVec.ofNat 3 (s.row.toNat + 1))] else []
       (s.result = 0x01 →
          t.trace = s.trace ++ wrap ++ [.clear, .setCursor 0 0] ∧ t.row = 0 ∧ t.column = 0) ∧
       (s.result = 0x00 →
          t.trace = s.trace ++ wrap ++ [.setCursor 0 t.row] ∧
            t.row = BitVec.ofNat 3 (s.row.toNat + 1 + w) ∧ t.column = 0) ∧
       (2 ≤ s.result.toNat →
          t.trace = s.trace ++ wrap ++ [.printChar s.result] ∧
            t.row = BitVec.ofNat 3 (s.row.toNat + w) ∧
            t.column.toNat = if w = 1 then 1 else s.column.toNat + 1))

/-- R80 item 4: from column 0, up to 21 printable bytes print with no cursor command between them; one more after 21
wraps to the next row first. -/
def Obligations.TwentySecondCharacterWraps : Prop :=
  ∀ (s : State) (bs : List Byte), s.column = 0 → (∀ b ∈ bs, 2 ≤ b.toNat) → bs.length ≤ 21 →
    ∃ t, bs.foldl (fun u b => ({ u with result := b } : State).finalizeByte) s = t ∧
      t.trace = s.trace ++ bs.map .printChar ∧ t.column.toNat = bs.length ∧ t.row = s.row ∧
      ∀ c : Byte, 2 ≤ c.toNat → bs.length = 21 →
        let u := ({ t with result := c } : State).finalizeByte
        u.trace = t.trace ++ [.setCursor 0 (BitVec.ofNat 3 (s.row.toNat + 1)), .printChar c] ∧
          u.column = 1 ∧ u.row = BitVec.ofNat 3 (s.row.toNat + 1)

/-! ## Encodings -/

/-- A few words of each format, written out from the spec's encodings (R14, R45, R46, R48). -/
def Obligations.DecodesSpecWords : Prop :=
  decode ⟨.phase, 0b0001⟩ = .instr .capture ∧ decode ⟨.phase, 0b1010⟩ = .instr .finHome ∧
  decode ⟨.phase, 0b0000⟩ = .rejected .idlePhase ∧ decode ⟨.phase, 0b1100⟩ = .rejected .unusedPhase ∧
  decode ⟨.sampleWord, 0b10⟩ = .instr .symReset ∧ decode ⟨.sampleWord, 0b11⟩ = .instr .symReset ∧
  decode ⟨.sampleWord, 0b01⟩ = .instr .symBit1 ∧ decode ⟨.sampleWord, 0b00⟩ = .instr .symBit0 ∧
  decode ⟨.commandByte, 0b00000001⟩ = .instr .cmdClear ∧ decode ⟨.commandByte, 0b01000001⟩ = .instr (.cmdPrint 65) ∧
  decode ⟨.commandByte, 0b00000000⟩ = .instr .cmdLinebreak

/-- Decoding undoes encoding, for every well-formed instruction that the spec gives a bit pattern, with every operand at
every value the encoding admits; and exactly the pattern rows have one. -/
def Obligations.DecodeUndoesEncode : Prop :=
  ∀ i : Instr, i.wf = true →
    (∀ c, encode i = some c → decode c = .instr i) ∧
    (encode i = none ↔
      i.format = .interface ∨ i.format = .environmentEvent ∨ i.format = .configurationFunction ∨
        i.format = .interruptEvent ∨ ∃ r n p, i = .ttWait r n p)

/-- Encoding undoes decoding: no code word is read as another's instruction, but for the sample bit s2 that a Reset
symbol never reads (R45, R46); and what is decoded is well-formed. -/
def Obligations.EncodeUndoesDecode : Prop :=
  ∀ (c : CodeWord) (i : Instr), decode c = .instr i →
    i.wf = true ∧ (encode i = some c ∨ i = .symReset ∧ c = ⟨.sampleWord, 0b11⟩)

/-- R46, R48, R50: no sample word and no command byte is rejected, whatever its bits. -/
def Obligations.SampleWordsAndBytesAllDecode : Prop :=
  (∀ w : BitVec 2, ∃ y : Symbol, decode ⟨.sampleWord, w.zeroExtend 8⟩ = .instr y.row ∧
      (y = .reset ↔ w.getLsbD 1 = true) ∧ (∀ b, y = .bit b ↔ w.getLsbD 1 = false ∧ w.getLsbD 0 = b)) ∧
  (∀ b : Byte, ∃ k : Command, decode ⟨.commandByte, b⟩ = .instr k.row ∧
      (k = .clear ↔ b.toNat = 1) ∧ (k = .lineBreak ↔ b.toNat = 0) ∧ (∀ x, k = .print x ↔ 2 ≤ b.toNat ∧ x = b))

/-! ## The machine -/

/-- A step runs the decoded instruction: where the block moves and PHASE's code decodes to `i`, the step is `exec i` on
the state with the move taken off; in IDLE it only takes the move off (R14, R11); and the moves of the tick source, the
line driver, the boot agent and the timer's callers are the table's rows (log 4, 16). (TT_US_TO_TICKS has "no runtime
step", R58.) -/
def Obligations.StepRunsDecodedInstruction : Prop :=
  ∀ s : State,
    (∀ i, s.nextMove = .block → decode ⟨.phase, s.phase.code.zeroExtend 8⟩ = .instr i → step s = exec i s.takeMove) ∧
    (s.nextMove = .block → s.phase = .idle → step s = .next s.takeMove) ∧
    (s.nextMove = .tick → step s = exec .ttTick s.takeMove) ∧
    (∀ v, s.nextMove = .line v → step s = exec (.edge v) s.takeMove) ∧
    (s.nextMove = .initBegins → step s = exec (.ttInit .begins) s.takeMove) ∧
    (∀ d, s.nextMove = .initCompletes d → step s = exec (.ttInit (.completes d)) s.takeMove) ∧
    (s.nextMove = .now → step s = exec .ttNow s.takeMove) ∧
    (∀ r, s.nextMove = .elapsed r → step s = exec (.ttElapsed r) s.takeMove)

/-- A table row placed for the block runs at the very next step (log 9). -/
def Obligations.PlacedRowRunsNext : Prop :=
  ∀ (s : State) (nbits w : Nat) (i : Instr), decodeTableWord nbits w = some i →
    step (s.withFetchWord nbits w) = exec i (s.placeInstr i)

/-- R15: a block step moves PHASE only along the listed transitions. -/
def Obligations.BlockStepFollowsTransitions : Prop :=
  ∀ s t : State, s.nextMove = .block → step s = .next t → t.phase ∈ s.phase.successors

/-- R31 item 5, R41, R87: what the agents outside the block cannot do. A step that is neither the block's nor a hardware
reset leaves the accumulator, the cursor, T0, SYM and TRACE as they were, and changes PHASE only by starting an activation
from IDLE. -/
def Obligations.EnvironmentKeepsBlockRegisters : Prop :=
  ∀ s t : State, step s = .next t → s.nextMove ≠ .block → (∀ a b c, s.nextMove ≠ .hardwareReset a b c) →
    t.bitCount = s.bitCount ∧ t.result = s.result ∧ t.column = s.column ∧ t.row = s.row ∧ t.t0 = s.t0 ∧
    t.sym = s.sym ∧ t.trace = s.trace ∧ t.past = s.past ∧
    (t.phase = s.phase ∨
      s.phase = .idle ∧ t.phase = .capture ∧ s.nextMove = .line false ∧ s.line = true ∧ s.edgeEn = true)

/-- R18, R40: TCNT is written only by the tick source, by init and by hardware reset; LINE only by the line driver and
by hardware reset; TSTATE only by init and hardware reset; EDGE_EN only by boot and hardware reset (R19, R26, R28). -/
def Obligations.EachPortHasItsWriter : Prop :=
  ∀ s t : State, step s = .next t →
    (t.tcnt ≠ s.tcnt → s.nextMove = .tick ∨ (∃ d, s.nextMove = .initCompletes d) ∨
      ∃ a b c, s.nextMove = .hardwareReset a b c) ∧
    (t.line ≠ s.line → (∃ v, s.nextMove = .line v) ∨ ∃ a b c, s.nextMove = .hardwareReset a b c) ∧
    (t.tstate ≠ s.tstate → s.nextMove = .initBegins ∨ (∃ d, s.nextMove = .initCompletes d) ∨
      ∃ a b c, s.nextMove = .hardwareReset a b c) ∧
    (t.edgeEn ≠ s.edgeEn → s.nextMove = .enableEdges ∨ ∃ a b c, s.nextMove = .hardwareReset a b c)

/-- R17: no step changes the configuration. -/
def Obligations.ConfigurationNeverChanges : Prop :=
  ∀ s t : State, step s = .next t → t.cfg = s.cfg

/-- R10, R29: a step emits at most one event, at the end of TRACE, and removes none; a hardware reset alone empties TRACE,
and what was emitted stays emitted (R97, log 10). -/
def Obligations.TraceOnlyGrows : Prop :=
  ∀ s t : State, step s = .next t →
    ((∀ a b c, s.nextMove ≠ .hardwareReset a b c) →
      t.past = s.past ∧ ∃ es : List SinkEvent, t.trace = s.trace ++ es ∧ es.length ≤ 1 ∧
        (es ≠ [] → s.nextMove = .block ∧ s.phase.finalizing = true)) ∧
    (∀ a b c, s.nextMove = .hardwareReset a b c → t.trace = [] ∧ t.past = s.past ++ s.trace)

/-- R29: the block never reads TRACE. Whatever was emitted before, a step other than a hardware reset does the same. -/
def Obligations.TraceIsNeverRead : Prop :=
  ∀ (s t : State) (pre : List SinkEvent), (∀ a b c, s.nextMove ≠ .hardwareReset a b c) → step s = .next t →
    step { s with trace := pre ++ s.trace } = .next { t with trace := pre ++ t.trace }

/-- R18: every use of TCNT is a difference of two reads. Shifting TCNT and T0 together changes no step of the block, the
tick source or the line driver but by that shift. -/
def Obligations.TickOriginIsIrrelevant : Prop :=
  ∀ (s t : State) (k : Tick), s.nextMove = .block ∨ s.nextMove = .tick ∨ (∃ v, s.nextMove = .line v) →
    step s = .next t →
    step { s with tcnt := s.tcnt + k, t0 := s.t0 + k } = .next { t with tcnt := t.tcnt + k, t0 := t.t0 + k }

/-- R31 items 1–4, R80 items 3 and 5: a step that changes ROW sets COLUMN to 0 and makes ROW either the next row modulo 8
or 0. -/
def Obligations.RowChangeZeroesColumn : Prop :=
  ∀ s t : State, step s = .next t → t.row ≠ s.row →
    t.column = 0 ∧ (t.row.toNat = (s.row.toNat + 1) % 8 ∨ t.row = 0)

/-- R74: a loaded accumulator is cleared only by hardware reset, by the Reset symbol and at the end of a finalize. -/
def Obligations.AccumulatorClearedAtThreePoints : Prop :=
  ∀ s t : State, s.Inv → step s = .next t → ¬(s.bitCount = 0 ∧ s.result = 0) → t.bitCount = 0 → t.result = 0 →
    (∃ a b c, s.nextMove = .hardwareReset a b c) ∨
    s.nextMove = .block ∧ (s.phase = .sample1 ∧ s.line = true ∨ s.phase = .finDone)

/-- R83: the two faults, and when a step raises each; R82: nothing else faults. -/
def Obligations.OnlyTheTwoFaults : Prop :=
  ∀ s : State,
    (step s = .fault .timerNotReady ↔
      s.tstate ≠ .ready ∧
        (s.nextMove = .now ∨ (∃ r, s.nextMove = .elapsed r) ∨
          s.nextMove = .block ∧
            (s.phase = .capture ∨ s.phase = .wait1 ∨ s.phase = .recapture ∨ s.phase = .wait2))) ∧
    (step s = .fault .initReentered ↔ s.nextMove = .initBegins ∧ s.tstate = .initializing)

/-- R11: a step answers a next state or a fault, and never refuses. R8, R58: of the table's rows only the
configuration-time conversion refuses, exactly where its result exceeds 255 (log 8). -/
def Obligations.OnlyRefusalIsTheConversion : Prop :=
  (∀ (s : State) (r : Refusal), step s ≠ .refused r) ∧
  ∀ (i : Instr) (s : State) (r : Refusal), exec i s = .refused r ↔
    r = .configurationRefused ∧ ∃ u, i = .ttUsToTicks u ∧ 255 < s.cfg.conversion.ticks u

/-- R31, with what an induction needs beside it: every step of every agent keeps the invariant. -/
def Obligations.EveryStepKeepsInvariant : Prop :=
  ∀ s t : State, s.Inv → step s = .next t → t.Inv

/-- The invariant holds right after reset, for every configuration and whatever reset leaves in TCNT, T0 and SYM. -/
def Obligations.ResetMeetsInvariant : Prop :=
  State.reset.Inv ∧ ∀ (c : Params) (tcnt t0 : Tick) (sym : Bool), (State.resetWith c tcnt t0 sym).Inv

/-- R32, R97: what hardware reset leaves, at any point; TCNT, T0 and SYM are whatever reset leaves there. (That they are
0 in `State.reset` is the model's choice, log 1, and is not stated.) The events already emitted stay emitted, in the
model's own field `past` (log 10). -/
def Obligations.ResetLeavesTheTableValues : Prop :=
  ∀ (s : State) (tcnt t0 : Tick) (sym : Bool), s.nextMove = .hardwareReset tcnt t0 sym →
    ∃ t, step s = .next t ∧ t.phase = .idle ∧ t.tstate = .uninit ∧ t.tcnt = tcnt ∧ t.t0 = t0 ∧ t.bitCount = 0 ∧
      t.result = 0 ∧ t.column = 0 ∧ t.row = 0 ∧ t.sym = sym ∧ t.edgeEn = false ∧ t.edgePending = false ∧
      t.line = s.cfg.lineInit ∧ t.trace = [] ∧ t.past = s.past ++ s.trace ∧ t.cfg = s.cfg

/-- R8: a configuration is refused exactly when THR or a converted constant exceeds 255; an admitted one starts in the
reset state with that THR and, for every duration, that usToTicks (R7). -/
def Obligations.ConfigurationAdmittedExactlyByTheRule : Prop :=
  ∀ (c : RawConfig) (tcnt t0 : Tick) (sym : Bool),
    (255 < c.thr ∨ (∃ u ∈ c.constants, 255 < c.conversion.ticks u) →
      configure c tcnt t0 sym = .refused .configurationRefused) ∧
    (c.thr ≤ 255 → (∀ u ∈ c.constants, c.conversion.ticks u ≤ 255) →
      ∃ p : Params, configure c tcnt t0 sym = .next (State.resetWith p tcnt t0 sym) ∧ p.thr.toNat = c.thr ∧
        p.edgePolicy = c.edgePolicy ∧ p.lineInit = c.lineInit ∧
        p.maxTicksBetweenPolls = c.maxTicksBetweenPolls ∧ p.tickRate = c.tickRate ∧
        p.debugPin = c.debugPin ∧ p.constants = c.constants ∧ ∀ u, p.conversion.ticks u = c.conversion.ticks u)

/-- R99: the boot sequence, with the draw `t` at init, arms the block: TSTATE = READY, TCNT = t, EDGE_EN = 1, and nothing
else of the block changes. -/
def Obligations.BootSequenceArms : Prop :=
  ∀ (s : State) (draw : Tick) (rest : List Move), s.tstate ≠ .initializing →
    s.schedule = (TickStatement.boot draw).moves ++ rest →
    run 4 s = .next { s with tcnt := draw, tstate := .ready, edgeEn := true, schedule := rest }

/-- R99: an edge delivered before `init()` has completed makes the CAPTURE step fault. -/
def Obligations.EdgeBeforeInitFaultsAtCapture : Prop :=
  ∀ (s : State) (rest : List Move), s.tstate ≠ .ready → s.edgeEn = true → s.phase = .idle → s.line = true →
    s.schedule = .line false :: .block :: rest → run 2 s = .fault .timerNotReady

/-! ## Refinement -/

/-- R68, R52: one activation at tick level is the symbol of its two samples. From an armed machine, with any number of
ticks from THR to 255 before each window's poll, the schedule that delivers the samples s1, s2 leaves the observation
that the symbol level gives, and an armed machine. -/
def Obligations.ActivationRefinesSymbolLevel : Prop :=
  ∀ (s : State) (n1 n2 : Nat) (s1 s2 : Bool) (rest : List Move),
    s.Armed → s.Inv → s.line = true → s.cfg.maxTicksBetweenPolls = none →
    s.cfg.thr.toNat ≤ n1 → n1 ≤ 255 → s.cfg.thr.toNat ≤ n2 → n2 ≤ 255 →
    s.schedule = deliver n1 n2 s1 s2 ++ rest →
    ∃ t, run (deliver n1 n2 s1 s2).length s = .next t ∧
      t.observe = (s.symbolLevel (classify s1 s2)).observe ∧
      t.Armed ∧ t.line = true ∧ t.cfg = s.cfg ∧ t.schedule = rest

/-- R47, R73, R81: `BYTE v` from a cleared accumulator and any cursor emits the table's events for `v` and leaves a cleared
accumulator: the eight sample words select v's command and nothing else. -/
def Obligations.ByteStatementRunsItsCommand : Prop :=
  ∀ (s : State) (v : Byte) (w : Nat), s.bitCount = 0 → s.result = 0 → s.column.toNat ≤ 21 →
    w = (if s.column.toNat = 21 then 1 else 0) →
    ∃ t, s.runWords (SymbolStatement.byte v).words = t ∧ t.bitCount = 0 ∧ t.result = 0 ∧
      (let wrap : List SinkEvent := if w = 1 then [.setCursor 0 (BitVec.ofNat 3 (s.row.toNat + 1))] else []
       (v = 0x01 → t.trace = s.trace ++ wrap ++ [.clear, .setCursor 0 0] ∧ t.row = 0 ∧ t.column = 0) ∧
       (v = 0x00 → t.trace = s.trace ++ wrap ++ [.setCursor 0 t.row] ∧
          t.row = BitVec.ofNat 3 (s.row.toNat + 1 + w) ∧ t.column = 0) ∧
       (2 ≤ v.toNat → t.trace = s.trace ++ wrap ++ [.printChar v] ∧
          t.row = BitVec.ofNat 3 (s.row.toNat + w) ∧ t.column.toNat = if w = 1 then 1 else s.column.toNat + 1))

/-- R31, R68: everything a run can reach keeps the invariant, for every schedule and every interleaving the free schedule
gives: the invariant over runs. -/
def Obligations.EveryRunKeepsInvariant : Prop :=
  ∀ (k : Nat) (s t : State), s.Inv → run k s = .next t → t.Inv ∧
    (t.Quiescent → t.bitCount.toNat ≤ 7 ∧ t.result.toNat < 2 ^ t.bitCount.toNat)
end

