-- ==== Sys2Proof/Laws/Decode.lean ====
section
/-!
SUPPORT. What the decode tables can answer: one lemma per table.
-/
namespace Sys2Proof

/-- PHASE's encoding is undone by its decoding (R14). -/
theorem Phase.ofCode?_code (p : Phase) : Phase.ofCode? p.code = some p := by cases p <;> rfl

/-- No two phases share a code (R14). -/
theorem Phase.code_injective {p q : Phase} (h : p.code = q.code) : p = q := by
  have := congrArg Phase.ofCode? h
  simpa [Phase.ofCode?_code] using this

/-- The row of a phase is a row of format `phase`, and well-formed. -/
theorem Phase.row_format {p : Phase} {i : Instr} (h : p.row = some i) : i.format = .phase ∧ i.wf = true := by
  cases p <;> simp [Phase.row] at h <;> subst h <;> exact ⟨rfl, rfl⟩

theorem Symbol.row_format (y : Symbol) : y.row.format = .sampleWord ∧ y.row.wf = true := by
  match y with
  | .reset => exact ⟨rfl, rfl⟩
  | .bit true => exact ⟨rfl, rfl⟩
  | .bit false => exact ⟨rfl, rfl⟩

theorem decodeCommand_row_format (b : Byte) : (decodeCommand b).row.format = .commandByte := by
  unfold decodeCommand; split
  · rfl
  · split <;> rfl

theorem decodeCommand_row_wf (b : Byte) : (decodeCommand b).row.wf = true := by
  unfold decodeCommand; split
  · rfl
  · split
    · rename_i h1 h2; simp [Command.row, Instr.wf, h1, h2]
    · rfl

end Sys2Proof
end

