-- ==== Sys2Proof/Laws/State.lean ====
section
/-!
SUPPORT. One lemma per field per update of the state: what each primitive update of Machine/Ops.lean writes, and
that it leaves every other field as it was, so that no later proof unfolds a record update.
-/
namespace Sys2Proof.Machine

/-! `State.goto` -/

@[simp] theorem State.goto_cfg (s : State) (p : Phase) : (s.goto p).cfg = s.cfg := rfl
@[simp] theorem State.goto_phase (s : State) (p : Phase) : (s.goto p).phase = p := rfl
@[simp] theorem State.goto_tstate (s : State) (p : Phase) : (s.goto p).tstate = s.tstate := rfl
@[simp] theorem State.goto_tcnt (s : State) (p : Phase) : (s.goto p).tcnt = s.tcnt := rfl
@[simp] theorem State.goto_t0 (s : State) (p : Phase) : (s.goto p).t0 = s.t0 := rfl
@[simp] theorem State.goto_bitCount (s : State) (p : Phase) : (s.goto p).bitCount = s.bitCount := rfl
@[simp] theorem State.goto_result (s : State) (p : Phase) : (s.goto p).result = s.result := rfl
@[simp] theorem State.goto_column (s : State) (p : Phase) : (s.goto p).column = s.column := rfl
@[simp] theorem State.goto_row (s : State) (p : Phase) : (s.goto p).row = s.row := rfl
@[simp] theorem State.goto_sym (s : State) (p : Phase) : (s.goto p).sym = s.sym := rfl
@[simp] theorem State.goto_edgeEn (s : State) (p : Phase) : (s.goto p).edgeEn = s.edgeEn := rfl
@[simp] theorem State.goto_edgePending (s : State) (p : Phase) : (s.goto p).edgePending = s.edgePending := rfl
@[simp] theorem State.goto_line (s : State) (p : Phase) : (s.goto p).line = s.line := rfl
@[simp] theorem State.goto_trace (s : State) (p : Phase) : (s.goto p).trace = s.trace := rfl
@[simp] theorem State.goto_past (s : State) (p : Phase) : (s.goto p).past = s.past := rfl
@[simp] theorem State.goto_ttResult (s : State) (p : Phase) : (s.goto p).ttResult = s.ttResult := rfl
@[simp] theorem State.goto_pollGap (s : State) (p : Phase) : (s.goto p).pollGap = s.pollGap := rfl
@[simp] theorem State.goto_schedule (s : State) (p : Phase) : (s.goto p).schedule = s.schedule := rfl
@[simp] theorem State.goto_drawn (s : State) (p : Phase) : (s.goto p).drawn = s.drawn := rfl

/-! `State.emit` -/

@[simp] theorem State.emit_cfg (s : State) (e : SinkEvent) : (s.emit e).cfg = s.cfg := rfl
@[simp] theorem State.emit_phase (s : State) (e : SinkEvent) : (s.emit e).phase = s.phase := rfl
@[simp] theorem State.emit_tstate (s : State) (e : SinkEvent) : (s.emit e).tstate = s.tstate := rfl
@[simp] theorem State.emit_tcnt (s : State) (e : SinkEvent) : (s.emit e).tcnt = s.tcnt := rfl
@[simp] theorem State.emit_t0 (s : State) (e : SinkEvent) : (s.emit e).t0 = s.t0 := rfl
@[simp] theorem State.emit_bitCount (s : State) (e : SinkEvent) : (s.emit e).bitCount = s.bitCount := rfl
@[simp] theorem State.emit_result (s : State) (e : SinkEvent) : (s.emit e).result = s.result := rfl
@[simp] theorem State.emit_column (s : State) (e : SinkEvent) : (s.emit e).column = s.column := rfl
@[simp] theorem State.emit_row (s : State) (e : SinkEvent) : (s.emit e).row = s.row := rfl
@[simp] theorem State.emit_sym (s : State) (e : SinkEvent) : (s.emit e).sym = s.sym := rfl
@[simp] theorem State.emit_edgeEn (s : State) (e : SinkEvent) : (s.emit e).edgeEn = s.edgeEn := rfl
@[simp] theorem State.emit_edgePending (s : State) (e : SinkEvent) : (s.emit e).edgePending = s.edgePending := rfl
@[simp] theorem State.emit_line (s : State) (e : SinkEvent) : (s.emit e).line = s.line := rfl
@[simp] theorem State.emit_trace (s : State) (e : SinkEvent) : (s.emit e).trace = s.trace ++ [e] := rfl
@[simp] theorem State.emit_past (s : State) (e : SinkEvent) : (s.emit e).past = s.past := rfl
@[simp] theorem State.emit_ttResult (s : State) (e : SinkEvent) : (s.emit e).ttResult = s.ttResult := rfl
@[simp] theorem State.emit_pollGap (s : State) (e : SinkEvent) : (s.emit e).pollGap = s.pollGap := rfl
@[simp] theorem State.emit_schedule (s : State) (e : SinkEvent) : (s.emit e).schedule = s.schedule := rfl
@[simp] theorem State.emit_drawn (s : State) (e : SinkEvent) : (s.emit e).drawn = s.drawn := rfl

/-! `State.clearAccumulator` -/

@[simp] theorem State.clearAccumulator_cfg (s : State) : (s.clearAccumulator).cfg = s.cfg := rfl
@[simp] theorem State.clearAccumulator_phase (s : State) : (s.clearAccumulator).phase = s.phase := rfl
@[simp] theorem State.clearAccumulator_tstate (s : State) : (s.clearAccumulator).tstate = s.tstate := rfl
@[simp] theorem State.clearAccumulator_tcnt (s : State) : (s.clearAccumulator).tcnt = s.tcnt := rfl
@[simp] theorem State.clearAccumulator_t0 (s : State) : (s.clearAccumulator).t0 = s.t0 := rfl
@[simp] theorem State.clearAccumulator_bitCount (s : State) : (s.clearAccumulator).bitCount = 0 := rfl
@[simp] theorem State.clearAccumulator_result (s : State) : (s.clearAccumulator).result = 0 := rfl
@[simp] theorem State.clearAccumulator_column (s : State) : (s.clearAccumulator).column = s.column := rfl
@[simp] theorem State.clearAccumulator_row (s : State) : (s.clearAccumulator).row = s.row := rfl
@[simp] theorem State.clearAccumulator_sym (s : State) : (s.clearAccumulator).sym = s.sym := rfl
@[simp] theorem State.clearAccumulator_edgeEn (s : State) : (s.clearAccumulator).edgeEn = s.edgeEn := rfl
@[simp] theorem State.clearAccumulator_edgePending (s : State) : (s.clearAccumulator).edgePending = s.edgePending := rfl
@[simp] theorem State.clearAccumulator_line (s : State) : (s.clearAccumulator).line = s.line := rfl
@[simp] theorem State.clearAccumulator_trace (s : State) : (s.clearAccumulator).trace = s.trace := rfl
@[simp] theorem State.clearAccumulator_past (s : State) : (s.clearAccumulator).past = s.past := rfl
@[simp] theorem State.clearAccumulator_ttResult (s : State) : (s.clearAccumulator).ttResult = s.ttResult := rfl
@[simp] theorem State.clearAccumulator_pollGap (s : State) : (s.clearAccumulator).pollGap = s.pollGap := rfl
@[simp] theorem State.clearAccumulator_schedule (s : State) : (s.clearAccumulator).schedule = s.schedule := rfl
@[simp] theorem State.clearAccumulator_drawn (s : State) : (s.clearAccumulator).drawn = s.drawn := rfl

/-! `State.polled` -/

@[simp] theorem State.polled_cfg (s : State) : (s.polled).cfg = s.cfg := rfl
@[simp] theorem State.polled_phase (s : State) : (s.polled).phase = s.phase := rfl
@[simp] theorem State.polled_tstate (s : State) : (s.polled).tstate = s.tstate := rfl
@[simp] theorem State.polled_tcnt (s : State) : (s.polled).tcnt = s.tcnt := rfl
@[simp] theorem State.polled_t0 (s : State) : (s.polled).t0 = s.t0 := rfl
@[simp] theorem State.polled_bitCount (s : State) : (s.polled).bitCount = s.bitCount := rfl
@[simp] theorem State.polled_result (s : State) : (s.polled).result = s.result := rfl
@[simp] theorem State.polled_column (s : State) : (s.polled).column = s.column := rfl
@[simp] theorem State.polled_row (s : State) : (s.polled).row = s.row := rfl
@[simp] theorem State.polled_sym (s : State) : (s.polled).sym = s.sym := rfl
@[simp] theorem State.polled_edgeEn (s : State) : (s.polled).edgeEn = s.edgeEn := rfl
@[simp] theorem State.polled_edgePending (s : State) : (s.polled).edgePending = s.edgePending := rfl
@[simp] theorem State.polled_line (s : State) : (s.polled).line = s.line := rfl
@[simp] theorem State.polled_trace (s : State) : (s.polled).trace = s.trace := rfl
@[simp] theorem State.polled_past (s : State) : (s.polled).past = s.past := rfl
@[simp] theorem State.polled_ttResult (s : State) : (s.polled).ttResult = s.ttResult := rfl
@[simp] theorem State.polled_pollGap (s : State) : (s.polled).pollGap = 0 := rfl
@[simp] theorem State.polled_schedule (s : State) : (s.polled).schedule = s.schedule := rfl
@[simp] theorem State.polled_drawn (s : State) : (s.polled).drawn = s.drawn := rfl

/-! `State.enableEdges` -/

@[simp] theorem State.enableEdges_cfg (s : State) : (s.enableEdges).cfg = s.cfg := rfl
@[simp] theorem State.enableEdges_phase (s : State) : (s.enableEdges).phase = s.phase := rfl
@[simp] theorem State.enableEdges_tstate (s : State) : (s.enableEdges).tstate = s.tstate := rfl
@[simp] theorem State.enableEdges_tcnt (s : State) : (s.enableEdges).tcnt = s.tcnt := rfl
@[simp] theorem State.enableEdges_t0 (s : State) : (s.enableEdges).t0 = s.t0 := rfl
@[simp] theorem State.enableEdges_bitCount (s : State) : (s.enableEdges).bitCount = s.bitCount := rfl
@[simp] theorem State.enableEdges_result (s : State) : (s.enableEdges).result = s.result := rfl
@[simp] theorem State.enableEdges_column (s : State) : (s.enableEdges).column = s.column := rfl
@[simp] theorem State.enableEdges_row (s : State) : (s.enableEdges).row = s.row := rfl
@[simp] theorem State.enableEdges_sym (s : State) : (s.enableEdges).sym = s.sym := rfl
@[simp] theorem State.enableEdges_edgeEn (s : State) : (s.enableEdges).edgeEn = true := rfl
@[simp] theorem State.enableEdges_edgePending (s : State) : (s.enableEdges).edgePending = s.edgePending := rfl
@[simp] theorem State.enableEdges_line (s : State) : (s.enableEdges).line = s.line := rfl
@[simp] theorem State.enableEdges_trace (s : State) : (s.enableEdges).trace = s.trace := rfl
@[simp] theorem State.enableEdges_past (s : State) : (s.enableEdges).past = s.past := rfl
@[simp] theorem State.enableEdges_ttResult (s : State) : (s.enableEdges).ttResult = s.ttResult := rfl
@[simp] theorem State.enableEdges_pollGap (s : State) : (s.enableEdges).pollGap = s.pollGap := rfl
@[simp] theorem State.enableEdges_schedule (s : State) : (s.enableEdges).schedule = s.schedule := rfl
@[simp] theorem State.enableEdges_drawn (s : State) : (s.enableEdges).drawn = s.drawn := rfl

/-! `State.blockNext` -/

@[simp] theorem State.blockNext_cfg (s : State) : (s.blockNext).cfg = s.cfg := rfl
@[simp] theorem State.blockNext_phase (s : State) : (s.blockNext).phase = s.phase := rfl
@[simp] theorem State.blockNext_tstate (s : State) : (s.blockNext).tstate = s.tstate := rfl
@[simp] theorem State.blockNext_tcnt (s : State) : (s.blockNext).tcnt = s.tcnt := rfl
@[simp] theorem State.blockNext_t0 (s : State) : (s.blockNext).t0 = s.t0 := rfl
@[simp] theorem State.blockNext_bitCount (s : State) : (s.blockNext).bitCount = s.bitCount := rfl
@[simp] theorem State.blockNext_result (s : State) : (s.blockNext).result = s.result := rfl
@[simp] theorem State.blockNext_column (s : State) : (s.blockNext).column = s.column := rfl
@[simp] theorem State.blockNext_row (s : State) : (s.blockNext).row = s.row := rfl
@[simp] theorem State.blockNext_sym (s : State) : (s.blockNext).sym = s.sym := rfl
@[simp] theorem State.blockNext_edgeEn (s : State) : (s.blockNext).edgeEn = s.edgeEn := rfl
@[simp] theorem State.blockNext_edgePending (s : State) : (s.blockNext).edgePending = s.edgePending := rfl
@[simp] theorem State.blockNext_line (s : State) : (s.blockNext).line = s.line := rfl
@[simp] theorem State.blockNext_trace (s : State) : (s.blockNext).trace = s.trace := rfl
@[simp] theorem State.blockNext_past (s : State) : (s.blockNext).past = s.past := rfl
@[simp] theorem State.blockNext_ttResult (s : State) : (s.blockNext).ttResult = s.ttResult := rfl
@[simp] theorem State.blockNext_pollGap (s : State) : (s.blockNext).pollGap = s.pollGap := rfl
@[simp] theorem State.blockNext_schedule (s : State) : (s.blockNext).schedule = .block :: s.schedule := rfl
@[simp] theorem State.blockNext_drawn (s : State) : (s.blockNext).drawn = s.drawn := rfl

/-! `State.moveToRow` -/

@[simp] theorem State.moveToRow_cfg (s : State) (r : Row) : (s.moveToRow r).cfg = s.cfg := rfl
@[simp] theorem State.moveToRow_phase (s : State) (r : Row) : (s.moveToRow r).phase = s.phase := rfl
@[simp] theorem State.moveToRow_tstate (s : State) (r : Row) : (s.moveToRow r).tstate = s.tstate := rfl
@[simp] theorem State.moveToRow_tcnt (s : State) (r : Row) : (s.moveToRow r).tcnt = s.tcnt := rfl
@[simp] theorem State.moveToRow_t0 (s : State) (r : Row) : (s.moveToRow r).t0 = s.t0 := rfl
@[simp] theorem State.moveToRow_bitCount (s : State) (r : Row) : (s.moveToRow r).bitCount = s.bitCount := rfl
@[simp] theorem State.moveToRow_result (s : State) (r : Row) : (s.moveToRow r).result = s.result := rfl
@[simp] theorem State.moveToRow_column (s : State) (r : Row) : (s.moveToRow r).column = 0 := rfl
@[simp] theorem State.moveToRow_row (s : State) (r : Row) : (s.moveToRow r).row = r := rfl
@[simp] theorem State.moveToRow_sym (s : State) (r : Row) : (s.moveToRow r).sym = s.sym := rfl
@[simp] theorem State.moveToRow_edgeEn (s : State) (r : Row) : (s.moveToRow r).edgeEn = s.edgeEn := rfl
@[simp] theorem State.moveToRow_edgePending (s : State) (r : Row) : (s.moveToRow r).edgePending = s.edgePending := rfl
@[simp] theorem State.moveToRow_line (s : State) (r : Row) : (s.moveToRow r).line = s.line := rfl
@[simp] theorem State.moveToRow_trace (s : State) (r : Row) : (s.moveToRow r).trace = s.trace ++ [.setCursor 0 r] := rfl
@[simp] theorem State.moveToRow_past (s : State) (r : Row) : (s.moveToRow r).past = s.past := rfl
@[simp] theorem State.moveToRow_ttResult (s : State) (r : Row) : (s.moveToRow r).ttResult = s.ttResult := rfl
@[simp] theorem State.moveToRow_pollGap (s : State) (r : Row) : (s.moveToRow r).pollGap = s.pollGap := rfl
@[simp] theorem State.moveToRow_schedule (s : State) (r : Row) : (s.moveToRow r).schedule = s.schedule := rfl
@[simp] theorem State.moveToRow_drawn (s : State) (r : Row) : (s.moveToRow r).drawn = s.drawn := rfl

/-! `State.captureAt` -/

@[simp] theorem State.captureAt_cfg (s : State) (t : Tick) (p : Phase) : (s.captureAt t p).cfg = s.cfg := rfl
@[simp] theorem State.captureAt_phase (s : State) (t : Tick) (p : Phase) : (s.captureAt t p).phase = p := rfl
@[simp] theorem State.captureAt_tstate (s : State) (t : Tick) (p : Phase) : (s.captureAt t p).tstate = s.tstate := rfl
@[simp] theorem State.captureAt_tcnt (s : State) (t : Tick) (p : Phase) : (s.captureAt t p).tcnt = s.tcnt := rfl
@[simp] theorem State.captureAt_t0 (s : State) (t : Tick) (p : Phase) : (s.captureAt t p).t0 = t := rfl
@[simp] theorem State.captureAt_bitCount (s : State) (t : Tick) (p : Phase) : (s.captureAt t p).bitCount = s.bitCount := rfl
@[simp] theorem State.captureAt_result (s : State) (t : Tick) (p : Phase) : (s.captureAt t p).result = s.result := rfl
@[simp] theorem State.captureAt_column (s : State) (t : Tick) (p : Phase) : (s.captureAt t p).column = s.column := rfl
@[simp] theorem State.captureAt_row (s : State) (t : Tick) (p : Phase) : (s.captureAt t p).row = s.row := rfl
@[simp] theorem State.captureAt_sym (s : State) (t : Tick) (p : Phase) : (s.captureAt t p).sym = s.sym := rfl
@[simp] theorem State.captureAt_edgeEn (s : State) (t : Tick) (p : Phase) : (s.captureAt t p).edgeEn = s.edgeEn := rfl
@[simp] theorem State.captureAt_edgePending (s : State) (t : Tick) (p : Phase) : (s.captureAt t p).edgePending = s.edgePending := rfl
@[simp] theorem State.captureAt_line (s : State) (t : Tick) (p : Phase) : (s.captureAt t p).line = s.line := rfl
@[simp] theorem State.captureAt_trace (s : State) (t : Tick) (p : Phase) : (s.captureAt t p).trace = s.trace := rfl
@[simp] theorem State.captureAt_past (s : State) (t : Tick) (p : Phase) : (s.captureAt t p).past = s.past := rfl
@[simp] theorem State.captureAt_ttResult (s : State) (t : Tick) (p : Phase) : (s.captureAt t p).ttResult = s.ttResult := rfl
@[simp] theorem State.captureAt_pollGap (s : State) (t : Tick) (p : Phase) : (s.captureAt t p).pollGap = 0 := rfl
@[simp] theorem State.captureAt_schedule (s : State) (t : Tick) (p : Phase) : (s.captureAt t p).schedule = s.schedule := rfl
@[simp] theorem State.captureAt_drawn (s : State) (t : Tick) (p : Phase) : (s.captureAt t p).drawn = s.drawn := rfl

/-! `State.mergeBit` -/

@[simp] theorem State.mergeBit_cfg (s : State) (b : Bool) : (s.mergeBit b).cfg = s.cfg := rfl
@[simp] theorem State.mergeBit_phase (s : State) (b : Bool) : (s.mergeBit b).phase = s.phase := rfl
@[simp] theorem State.mergeBit_tstate (s : State) (b : Bool) : (s.mergeBit b).tstate = s.tstate := rfl
@[simp] theorem State.mergeBit_tcnt (s : State) (b : Bool) : (s.mergeBit b).tcnt = s.tcnt := rfl
@[simp] theorem State.mergeBit_t0 (s : State) (b : Bool) : (s.mergeBit b).t0 = s.t0 := rfl
@[simp] theorem State.mergeBit_bitCount (s : State) (b : Bool) : (s.mergeBit b).bitCount = s.bitCount := rfl
@[simp] theorem State.mergeBit_result (s : State) (b : Bool) : (s.mergeBit b).result = if b then s.result ||| (1#8 <<< s.bitCount.toNat) else s.result := rfl
@[simp] theorem State.mergeBit_column (s : State) (b : Bool) : (s.mergeBit b).column = s.column := rfl
@[simp] theorem State.mergeBit_row (s : State) (b : Bool) : (s.mergeBit b).row = s.row := rfl
@[simp] theorem State.mergeBit_sym (s : State) (b : Bool) : (s.mergeBit b).sym = s.sym := rfl
@[simp] theorem State.mergeBit_edgeEn (s : State) (b : Bool) : (s.mergeBit b).edgeEn = s.edgeEn := rfl
@[simp] theorem State.mergeBit_edgePending (s : State) (b : Bool) : (s.mergeBit b).edgePending = s.edgePending := rfl
@[simp] theorem State.mergeBit_line (s : State) (b : Bool) : (s.mergeBit b).line = s.line := rfl
@[simp] theorem State.mergeBit_trace (s : State) (b : Bool) : (s.mergeBit b).trace = s.trace := rfl
@[simp] theorem State.mergeBit_past (s : State) (b : Bool) : (s.mergeBit b).past = s.past := rfl
@[simp] theorem State.mergeBit_ttResult (s : State) (b : Bool) : (s.mergeBit b).ttResult = s.ttResult := rfl
@[simp] theorem State.mergeBit_pollGap (s : State) (b : Bool) : (s.mergeBit b).pollGap = s.pollGap := rfl
@[simp] theorem State.mergeBit_schedule (s : State) (b : Bool) : (s.mergeBit b).schedule = s.schedule := rfl
@[simp] theorem State.mergeBit_drawn (s : State) (b : Bool) : (s.mergeBit b).drawn = s.drawn := rfl

/-! `State.endActivation` -/

@[simp] theorem State.endActivation_cfg (s : State) : (s.endActivation).cfg = s.cfg := by
  unfold State.endActivation; split <;> rfl
@[simp] theorem State.endActivation_tstate (s : State) : (s.endActivation).tstate = s.tstate := by
  unfold State.endActivation; split <;> rfl
@[simp] theorem State.endActivation_tcnt (s : State) : (s.endActivation).tcnt = s.tcnt := by
  unfold State.endActivation; split <;> rfl
@[simp] theorem State.endActivation_t0 (s : State) : (s.endActivation).t0 = s.t0 := by
  unfold State.endActivation; split <;> rfl
@[simp] theorem State.endActivation_bitCount (s : State) : (s.endActivation).bitCount = s.bitCount := by
  unfold State.endActivation; split <;> rfl
@[simp] theorem State.endActivation_result (s : State) : (s.endActivation).result = s.result := by
  unfold State.endActivation; split <;> rfl
@[simp] theorem State.endActivation_column (s : State) : (s.endActivation).column = s.column := by
  unfold State.endActivation; split <;> rfl
@[simp] theorem State.endActivation_row (s : State) : (s.endActivation).row = s.row := by
  unfold State.endActivation; split <;> rfl
@[simp] theorem State.endActivation_sym (s : State) : (s.endActivation).sym = s.sym := by
  unfold State.endActivation; split <;> rfl
@[simp] theorem State.endActivation_edgeEn (s : State) : (s.endActivation).edgeEn = s.edgeEn := by
  unfold State.endActivation; split <;> rfl
@[simp] theorem State.endActivation_line (s : State) : (s.endActivation).line = s.line := by
  unfold State.endActivation; split <;> rfl
@[simp] theorem State.endActivation_trace (s : State) : (s.endActivation).trace = s.trace := by
  unfold State.endActivation; split <;> rfl
@[simp] theorem State.endActivation_past (s : State) : (s.endActivation).past = s.past := by
  unfold State.endActivation; split <;> rfl
@[simp] theorem State.endActivation_ttResult (s : State) : (s.endActivation).ttResult = s.ttResult := by
  unfold State.endActivation; split <;> rfl
@[simp] theorem State.endActivation_pollGap (s : State) : (s.endActivation).pollGap = s.pollGap := by
  unfold State.endActivation; split <;> rfl
@[simp] theorem State.endActivation_schedule (s : State) : (s.endActivation).schedule = s.schedule := by
  unfold State.endActivation; split <;> rfl
@[simp] theorem State.endActivation_drawn (s : State) : (s.endActivation).drawn = s.drawn := by
  unfold State.endActivation; split <;> rfl

/-! `State.takeEdge` -/

@[simp] theorem State.takeEdge_cfg (s : State) : (s.takeEdge).cfg = s.cfg := by
  unfold State.takeEdge; repeat' split
  all_goals rfl
@[simp] theorem State.takeEdge_tstate (s : State) : (s.takeEdge).tstate = s.tstate := by
  unfold State.takeEdge; repeat' split
  all_goals rfl
@[simp] theorem State.takeEdge_tcnt (s : State) : (s.takeEdge).tcnt = s.tcnt := by
  unfold State.takeEdge; repeat' split
  all_goals rfl
@[simp] theorem State.takeEdge_t0 (s : State) : (s.takeEdge).t0 = s.t0 := by
  unfold State.takeEdge; repeat' split
  all_goals rfl
@[simp] theorem State.takeEdge_bitCount (s : State) : (s.takeEdge).bitCount = s.bitCount := by
  unfold State.takeEdge; repeat' split
  all_goals rfl
@[simp] theorem State.takeEdge_result (s : State) : (s.takeEdge).result = s.result := by
  unfold State.takeEdge; repeat' split
  all_goals rfl
@[simp] theorem State.takeEdge_column (s : State) : (s.takeEdge).column = s.column := by
  unfold State.takeEdge; repeat' split
  all_goals rfl
@[simp] theorem State.takeEdge_row (s : State) : (s.takeEdge).row = s.row := by
  unfold State.takeEdge; repeat' split
  all_goals rfl
@[simp] theorem State.takeEdge_sym (s : State) : (s.takeEdge).sym = s.sym := by
  unfold State.takeEdge; repeat' split
  all_goals rfl
@[simp] theorem State.takeEdge_edgeEn (s : State) : (s.takeEdge).edgeEn = s.edgeEn := by
  unfold State.takeEdge; repeat' split
  all_goals rfl
@[simp] theorem State.takeEdge_line (s : State) : (s.takeEdge).line = s.line := by
  unfold State.takeEdge; repeat' split
  all_goals rfl
@[simp] theorem State.takeEdge_trace (s : State) : (s.takeEdge).trace = s.trace := by
  unfold State.takeEdge; repeat' split
  all_goals rfl
@[simp] theorem State.takeEdge_past (s : State) : (s.takeEdge).past = s.past := by
  unfold State.takeEdge; repeat' split
  all_goals rfl
@[simp] theorem State.takeEdge_ttResult (s : State) : (s.takeEdge).ttResult = s.ttResult := by
  unfold State.takeEdge; repeat' split
  all_goals rfl
@[simp] theorem State.takeEdge_pollGap (s : State) : (s.takeEdge).pollGap = s.pollGap := by
  unfold State.takeEdge; repeat' split
  all_goals rfl
@[simp] theorem State.takeEdge_schedule (s : State) : (s.takeEdge).schedule = s.schedule := by
  unfold State.takeEdge; repeat' split
  all_goals rfl
@[simp] theorem State.takeEdge_drawn (s : State) : (s.takeEdge).drawn = s.drawn := by
  unfold State.takeEdge; repeat' split
  all_goals rfl

/-! `State.completeInit` -/

@[simp] theorem State.completeInit_cfg (s : State) (d : Tick) : (s.completeInit d).cfg = s.cfg := by
  unfold State.completeInit; split <;> rfl
@[simp] theorem State.completeInit_phase (s : State) (d : Tick) : (s.completeInit d).phase = s.phase := by
  unfold State.completeInit; split <;> rfl
@[simp] theorem State.completeInit_t0 (s : State) (d : Tick) : (s.completeInit d).t0 = s.t0 := by
  unfold State.completeInit; split <;> rfl
@[simp] theorem State.completeInit_bitCount (s : State) (d : Tick) : (s.completeInit d).bitCount = s.bitCount := by
  unfold State.completeInit; split <;> rfl
@[simp] theorem State.completeInit_result (s : State) (d : Tick) : (s.completeInit d).result = s.result := by
  unfold State.completeInit; split <;> rfl
@[simp] theorem State.completeInit_column (s : State) (d : Tick) : (s.completeInit d).column = s.column := by
  unfold State.completeInit; split <;> rfl
@[simp] theorem State.completeInit_row (s : State) (d : Tick) : (s.completeInit d).row = s.row := by
  unfold State.completeInit; split <;> rfl
@[simp] theorem State.completeInit_sym (s : State) (d : Tick) : (s.completeInit d).sym = s.sym := by
  unfold State.completeInit; split <;> rfl
@[simp] theorem State.completeInit_edgeEn (s : State) (d : Tick) : (s.completeInit d).edgeEn = s.edgeEn := by
  unfold State.completeInit; split <;> rfl
@[simp] theorem State.completeInit_edgePending (s : State) (d : Tick) : (s.completeInit d).edgePending = s.edgePending := by
  unfold State.completeInit; split <;> rfl
@[simp] theorem State.completeInit_line (s : State) (d : Tick) : (s.completeInit d).line = s.line := by
  unfold State.completeInit; split <;> rfl
@[simp] theorem State.completeInit_trace (s : State) (d : Tick) : (s.completeInit d).trace = s.trace := by
  unfold State.completeInit; split <;> rfl
@[simp] theorem State.completeInit_past (s : State) (d : Tick) : (s.completeInit d).past = s.past := by
  unfold State.completeInit; split <;> rfl
@[simp] theorem State.completeInit_ttResult (s : State) (d : Tick) : (s.completeInit d).ttResult = s.ttResult := by
  unfold State.completeInit; split <;> rfl
@[simp] theorem State.completeInit_pollGap (s : State) (d : Tick) : (s.completeInit d).pollGap = s.pollGap := by
  unfold State.completeInit; split <;> rfl
@[simp] theorem State.completeInit_schedule (s : State) (d : Tick) : (s.completeInit d).schedule = s.schedule := by
  unfold State.completeInit; split <;> rfl
@[simp] theorem State.completeInit_drawn (s : State) (d : Tick) : (s.completeInit d).drawn = s.drawn := by
  unfold State.completeInit; split <;> rfl

/-! `State.tickOnce` -/

@[simp] theorem State.tickOnce_cfg (s : State) : (s.tickOnce).cfg = s.cfg := by
  unfold State.tickOnce; split <;> rfl
@[simp] theorem State.tickOnce_phase (s : State) : (s.tickOnce).phase = s.phase := by
  unfold State.tickOnce; split <;> rfl
@[simp] theorem State.tickOnce_tstate (s : State) : (s.tickOnce).tstate = s.tstate := by
  unfold State.tickOnce; split <;> rfl
@[simp] theorem State.tickOnce_t0 (s : State) : (s.tickOnce).t0 = s.t0 := by
  unfold State.tickOnce; split <;> rfl
@[simp] theorem State.tickOnce_bitCount (s : State) : (s.tickOnce).bitCount = s.bitCount := by
  unfold State.tickOnce; split <;> rfl
@[simp] theorem State.tickOnce_result (s : State) : (s.tickOnce).result = s.result := by
  unfold State.tickOnce; split <;> rfl
@[simp] theorem State.tickOnce_column (s : State) : (s.tickOnce).column = s.column := by
  unfold State.tickOnce; split <;> rfl
@[simp] theorem State.tickOnce_row (s : State) : (s.tickOnce).row = s.row := by
  unfold State.tickOnce; split <;> rfl
@[simp] theorem State.tickOnce_sym (s : State) : (s.tickOnce).sym = s.sym := by
  unfold State.tickOnce; split <;> rfl
@[simp] theorem State.tickOnce_edgeEn (s : State) : (s.tickOnce).edgeEn = s.edgeEn := by
  unfold State.tickOnce; split <;> rfl
@[simp] theorem State.tickOnce_edgePending (s : State) : (s.tickOnce).edgePending = s.edgePending := by
  unfold State.tickOnce; split <;> rfl
@[simp] theorem State.tickOnce_line (s : State) : (s.tickOnce).line = s.line := by
  unfold State.tickOnce; split <;> rfl
@[simp] theorem State.tickOnce_trace (s : State) : (s.tickOnce).trace = s.trace := by
  unfold State.tickOnce; split <;> rfl
@[simp] theorem State.tickOnce_past (s : State) : (s.tickOnce).past = s.past := by
  unfold State.tickOnce; split <;> rfl
@[simp] theorem State.tickOnce_ttResult (s : State) : (s.tickOnce).ttResult = s.ttResult := by
  unfold State.tickOnce; split <;> rfl
@[simp] theorem State.tickOnce_schedule (s : State) : (s.tickOnce).schedule = s.schedule := by
  unfold State.tickOnce; split <;> rfl
@[simp] theorem State.tickOnce_drawn (s : State) : (s.tickOnce).drawn = s.drawn := by
  unfold State.tickOnce; split <;> rfl

/-! `State.takeMove` -/

@[simp] theorem State.takeMove_cfg (s : State) : (s.takeMove).cfg = s.cfg := by
  unfold State.takeMove; split <;> rfl
@[simp] theorem State.takeMove_phase (s : State) : (s.takeMove).phase = s.phase := by
  unfold State.takeMove; split <;> rfl
@[simp] theorem State.takeMove_tstate (s : State) : (s.takeMove).tstate = s.tstate := by
  unfold State.takeMove; split <;> rfl
@[simp] theorem State.takeMove_tcnt (s : State) : (s.takeMove).tcnt = s.tcnt := by
  unfold State.takeMove; split <;> rfl
@[simp] theorem State.takeMove_t0 (s : State) : (s.takeMove).t0 = s.t0 := by
  unfold State.takeMove; split <;> rfl
@[simp] theorem State.takeMove_bitCount (s : State) : (s.takeMove).bitCount = s.bitCount := by
  unfold State.takeMove; split <;> rfl
@[simp] theorem State.takeMove_result (s : State) : (s.takeMove).result = s.result := by
  unfold State.takeMove; split <;> rfl
@[simp] theorem State.takeMove_column (s : State) : (s.takeMove).column = s.column := by
  unfold State.takeMove; split <;> rfl
@[simp] theorem State.takeMove_row (s : State) : (s.takeMove).row = s.row := by
  unfold State.takeMove; split <;> rfl
@[simp] theorem State.takeMove_sym (s : State) : (s.takeMove).sym = s.sym := by
  unfold State.takeMove; split <;> rfl
@[simp] theorem State.takeMove_edgeEn (s : State) : (s.takeMove).edgeEn = s.edgeEn := by
  unfold State.takeMove; split <;> rfl
@[simp] theorem State.takeMove_edgePending (s : State) : (s.takeMove).edgePending = s.edgePending := by
  unfold State.takeMove; split <;> rfl
@[simp] theorem State.takeMove_line (s : State) : (s.takeMove).line = s.line := by
  unfold State.takeMove; split <;> rfl
@[simp] theorem State.takeMove_trace (s : State) : (s.takeMove).trace = s.trace := by
  unfold State.takeMove; split <;> rfl
@[simp] theorem State.takeMove_past (s : State) : (s.takeMove).past = s.past := by
  unfold State.takeMove; split <;> rfl
@[simp] theorem State.takeMove_ttResult (s : State) : (s.takeMove).ttResult = s.ttResult := by
  unfold State.takeMove; split <;> rfl
@[simp] theorem State.takeMove_pollGap (s : State) : (s.takeMove).pollGap = s.pollGap := by
  unfold State.takeMove; split <;> rfl

/-! `State.driveLine` -/

@[simp] theorem State.driveLine_cfg (s : State) (level : Bool) : (s.driveLine level).cfg = s.cfg := by
  unfold State.driveLine; split <;> simp
@[simp] theorem State.driveLine_tstate (s : State) (level : Bool) : (s.driveLine level).tstate = s.tstate := by
  unfold State.driveLine; split <;> simp
@[simp] theorem State.driveLine_tcnt (s : State) (level : Bool) : (s.driveLine level).tcnt = s.tcnt := by
  unfold State.driveLine; split <;> simp
@[simp] theorem State.driveLine_t0 (s : State) (level : Bool) : (s.driveLine level).t0 = s.t0 := by
  unfold State.driveLine; split <;> simp
@[simp] theorem State.driveLine_bitCount (s : State) (level : Bool) : (s.driveLine level).bitCount = s.bitCount := by
  unfold State.driveLine; split <;> simp
@[simp] theorem State.driveLine_result (s : State) (level : Bool) : (s.driveLine level).result = s.result := by
  unfold State.driveLine; split <;> simp
@[simp] theorem State.driveLine_column (s : State) (level : Bool) : (s.driveLine level).column = s.column := by
  unfold State.driveLine; split <;> simp
@[simp] theorem State.driveLine_row (s : State) (level : Bool) : (s.driveLine level).row = s.row := by
  unfold State.driveLine; split <;> simp
@[simp] theorem State.driveLine_sym (s : State) (level : Bool) : (s.driveLine level).sym = s.sym := by
  unfold State.driveLine; split <;> simp
@[simp] theorem State.driveLine_edgeEn (s : State) (level : Bool) : (s.driveLine level).edgeEn = s.edgeEn := by
  unfold State.driveLine; split <;> simp
@[simp] theorem State.driveLine_line (s : State) (level : Bool) : (s.driveLine level).line = level := by
  unfold State.driveLine; split <;> simp
@[simp] theorem State.driveLine_trace (s : State) (level : Bool) : (s.driveLine level).trace = s.trace := by
  unfold State.driveLine; split <;> simp
@[simp] theorem State.driveLine_past (s : State) (level : Bool) : (s.driveLine level).past = s.past := by
  unfold State.driveLine; split <;> simp
@[simp] theorem State.driveLine_ttResult (s : State) (level : Bool) : (s.driveLine level).ttResult = s.ttResult := by
  unfold State.driveLine; split <;> simp
@[simp] theorem State.driveLine_pollGap (s : State) (level : Bool) : (s.driveLine level).pollGap = s.pollGap := by
  unfold State.driveLine; split <;> simp
@[simp] theorem State.driveLine_schedule (s : State) (level : Bool) : (s.driveLine level).schedule = s.schedule := by
  unfold State.driveLine; split <;> simp
@[simp] theorem State.driveLine_drawn (s : State) (level : Bool) : (s.driveLine level).drawn = s.drawn := by
  unfold State.driveLine; split <;> simp

/-! `State.hardwareReset` -/

@[simp] theorem State.hardwareReset_cfg (s : State) (a b : Tick) (c : Bool) : (s.hardwareReset a b c).cfg = s.cfg := rfl
@[simp] theorem State.hardwareReset_phase (s : State) (a b : Tick) (c : Bool) : (s.hardwareReset a b c).phase = .idle := rfl
@[simp] theorem State.hardwareReset_tstate (s : State) (a b : Tick) (c : Bool) : (s.hardwareReset a b c).tstate = .uninit := rfl
@[simp] theorem State.hardwareReset_tcnt (s : State) (a b : Tick) (c : Bool) : (s.hardwareReset a b c).tcnt = a := rfl
@[simp] theorem State.hardwareReset_t0 (s : State) (a b : Tick) (c : Bool) : (s.hardwareReset a b c).t0 = b := rfl
@[simp] theorem State.hardwareReset_bitCount (s : State) (a b : Tick) (c : Bool) : (s.hardwareReset a b c).bitCount = 0 := rfl
@[simp] theorem State.hardwareReset_result (s : State) (a b : Tick) (c : Bool) : (s.hardwareReset a b c).result = 0 := rfl
@[simp] theorem State.hardwareReset_column (s : State) (a b : Tick) (c : Bool) : (s.hardwareReset a b c).column = 0 := rfl
@[simp] theorem State.hardwareReset_row (s : State) (a b : Tick) (c : Bool) : (s.hardwareReset a b c).row = 0 := rfl
@[simp] theorem State.hardwareReset_sym (s : State) (a b : Tick) (c : Bool) : (s.hardwareReset a b c).sym = c := rfl
@[simp] theorem State.hardwareReset_edgeEn (s : State) (a b : Tick) (c : Bool) : (s.hardwareReset a b c).edgeEn = false := rfl
@[simp] theorem State.hardwareReset_edgePending (s : State) (a b : Tick) (c : Bool) : (s.hardwareReset a b c).edgePending = false := rfl
@[simp] theorem State.hardwareReset_line (s : State) (a b : Tick) (c : Bool) : (s.hardwareReset a b c).line = s.cfg.lineInit := rfl
@[simp] theorem State.hardwareReset_trace (s : State) (a b : Tick) (c : Bool) : (s.hardwareReset a b c).trace = [] := rfl
@[simp] theorem State.hardwareReset_past (s : State) (a b : Tick) (c : Bool) : (s.hardwareReset a b c).past = s.past ++ s.trace := rfl
@[simp] theorem State.hardwareReset_ttResult (s : State) (a b : Tick) (c : Bool) : (s.hardwareReset a b c).ttResult = 0 := rfl
@[simp] theorem State.hardwareReset_pollGap (s : State) (a b : Tick) (c : Bool) : (s.hardwareReset a b c).pollGap = 0 := rfl
@[simp] theorem State.hardwareReset_schedule (s : State) (a b : Tick) (c : Bool) : (s.hardwareReset a b c).schedule = s.schedule := rfl
@[simp] theorem State.hardwareReset_drawn (s : State) (a b : Tick) (c : Bool) : (s.hardwareReset a b c).drawn = s.drawn := rfl

end Sys2Proof.Machine
end

