-- ==== Sys2Proof/Laws/Ops.lean ====
section
/-!
SUPPORT. One lemma per shared operation of Machine/Operands.lean, Flags.lean and Ops.lean that says what it can do,
for later proofs to cite instead of unfolding it.
-/
namespace Sys2Proof.Machine

/-! Reading the counter -/

theorem withTick_ready {s : State} (h : s.tstate = .ready) (k : Tick → Host.Outcome State Fault Refusal) :
    withTick s k = k s.tcnt := by simp [withTick, h]

theorem withTick_notReady {s : State} (h : s.tstate ≠ .ready) (k : Tick → Host.Outcome State Fault Refusal) :
    withTick s k = .fault .timerNotReady := by simp [withTick, h]

/-- A counter read answers a next state exactly when the timer is READY and its continuation does. -/
theorem withTick_next_iff {s t : State} {k : Tick → Host.Outcome State Fault Refusal} :
    withTick s k = .next t ↔ s.tstate = .ready ∧ k s.tcnt = .next t := by
  by_cases h : s.tstate = .ready <;> simp [withTick, h]

/-! Comparisons -/

theorem State.tickAdmitted_of_unbounded {s : State} (h : s.cfg.maxTicksBetweenPolls = none) :
    s.tickAdmitted = true := by simp [State.tickAdmitted, h]

theorem State.tickAdmitted_of_bound {s : State} {g : Nat} (h : s.cfg.maxTicksBetweenPolls = some g) :
    s.tickAdmitted = true ↔ (s.polling → s.pollGap < g) := by
  simp only [State.tickAdmitted, h]; exact decide_eq_true_iff

theorem State.nextRow_toNat (s : State) : s.nextRow.toNat = (s.row.toNat + 1) % 8 := by
  simp [State.nextRow]

theorem clearByte_ne_lineBreakByte : clearByte ≠ lineBreakByte := by decide

/-- The configurations a machine is made for (R8). -/
theorem RawConfig_wf_iff {c : RawConfig} :
    c.wf = true ↔ c.thr ≤ 255 ∧ ∀ u ∈ c.constants, c.conversion.ticks u ≤ 255 := by
  unfold RawConfig.wf RawConfig.thrFits RawConfig.constantsFit maxTick
  rw [Bool.and_eq_true, List.all_eq_true]
  exact and_congr decide_eq_true_iff (forall₂_congr fun _ _ => decide_eq_true_iff)

/-- No move performs the configuration-time conversion (R58). -/
theorem State.select_ne_conversion (s : State) (m : Move) (us : Nat) : s.select m ≠ .run (.ttUsToTicks us) := by
  cases m <;> simp only [State.select, ne_eq, reduceCtorEq, not_false_eq_true, Selected.run.injEq]
  cases s.phase <;> simp [Phase.row]

/-! The edge and the return -/

/-- The return leaves PHASE at IDLE or, with a latched edge, at CAPTURE. -/
theorem State.endActivation_phase (s : State) :
    s.endActivation.phase = .idle ∨ s.endActivation.phase = .capture := by
  unfold State.endActivation; split <;> simp

/-- After the return no edge is latched, if none can be latched under Drop. -/
theorem State.endActivation_edgePending (s : State) (h : s.cfg.edgePolicy = .drop → s.edgePending = false) :
    s.endActivation.edgePending = false := by
  unfold State.endActivation
  split
  · rfl
  · rename_i hn
    cases hp : s.cfg.edgePolicy
    · simpa using h hp
    · simpa [hp] using hn

/-- With no edge latched the return goes to IDLE. -/
theorem State.endActivation_of_not_pending {s : State} (h : s.edgePending = false) :
    s.endActivation = s.goto .idle := by simp [State.endActivation, h, State.goto]

/-- A line step that is no falling edge writes LINE alone. -/
theorem State.driveLine_of_not_falls {s : State} {level : Bool} (h : ¬ s.falls level) :
    s.driveLine level = { s with line := level } := if_neg h

/-- An edge can change PHASE only from IDLE to CAPTURE. -/
theorem State.driveLine_phase (s : State) (level : Bool) :
    (s.driveLine level).phase = s.phase ∨ s.phase = .idle ∧ (s.driveLine level).phase = .capture := by
  unfold State.driveLine State.takeEdge
  split
  · split
    · exact .inl rfl
    · split
      · rename_i h; exact .inr ⟨h, rfl⟩
      · split <;> exact .inl rfl
  · exact .inl rfl

/-- Everything a line step can do (R60): drive the line only; start an activation; latch the edge. -/
theorem State.driveLine_cases (s : State) (v : Bool) :
    s.driveLine v = { s with line := v } ∨
    (s.line = true ∧ v = false ∧ s.edgeEn = true ∧ s.phase = .idle ∧
      s.driveLine v = { s with line := v, phase := .capture }) ∨
    (s.line = true ∧ v = false ∧ s.edgeEn = true ∧ s.phase ≠ .idle ∧ s.cfg.edgePolicy = .latchOne ∧
      s.driveLine v = { s with line := v, edgePending := true }) := by
  by_cases hf : s.falls v
  · obtain ⟨hl, hv⟩ := hf
    simp only [State.driveLine, State.falls, hl, hv, and_self, if_true, State.takeEdge]
    cases he : s.edgeEn
    · simp
    · by_cases hi : s.phase = .idle
      · simp [hi]
      · cases hc : s.cfg.edgePolicy <;> simp [hi]
  · exact .inl (State.driveLine_of_not_falls hf)

/-! The polls -/

theorem State.pollAt_eq (s : State) (t ref n : Tick) (stay next : Phase) :
    s.pollAt t ref n stay next =
      { s with phase := if n.toNat ≤ (t - ref).toNat then next else stay, pollGap := 0 } := by
  unfold State.pollAt State.goto State.polled elapsedTicks; rfl

/-! The accumulator -/

/-- A bit that does not complete the byte ends the activation. -/
theorem State.countBit_of_lt {s : State} (h : s.bitCount.toNat < 7) :
    s.countBit = { s with bitCount := BitVec.ofNat 4 (s.bitCount.toNat + 1) }.endActivation := by
  have h' : s.bitCount.toNat + 1 < 8 := by omega
  simp only [State.countBit, bitsPerByte, h', if_true]

/-- The bit that completes the byte goes on to FIN_WRAP. -/
theorem State.countBit_of_ge {s : State} (h : 7 ≤ s.bitCount.toNat) :
    s.countBit = { s with bitCount := BitVec.ofNat 4 (s.bitCount.toNat + 1), phase := .finWrap } := by
  have h' : ¬ s.bitCount.toNat + 1 < 8 := by omega
  simp only [State.countBit, bitsPerByte, h', if_false]

/-- Everything the ACCUM step can do (R70–R72). -/
theorem State.accumulate_cases (s : State) (b : Bool) :
    (s.bitCount.toNat < 7 ∧
      s.accumulate b = { s.mergeBit b with bitCount := BitVec.ofNat 4 (s.bitCount.toNat + 1) }.endActivation) ∨
    (7 ≤ s.bitCount.toNat ∧
      s.accumulate b =
        { s.mergeBit b with bitCount := BitVec.ofNat 4 (s.bitCount.toNat + 1), phase := .finWrap }) := by
  by_cases h : s.bitCount.toNat < 7
  · exact .inl ⟨h, State.countBit_of_lt (s := s.mergeBit b) h⟩
  · exact .inr ⟨by omega, State.countBit_of_ge (s := s.mergeBit b) (by simp only [State.mergeBit_bitCount]; omega)⟩

/-! The command decoder -/

theorem State.wrapLine_of_full {s : State} (h : 21 ≤ s.column.toNat) :
    s.wrapLine = (s.moveToRow s.nextRow).goto .finDispatch :=
  congrArg (State.goto · .finDispatch) (if_pos h)

theorem State.wrapLine_of_not_full {s : State} (h : s.column.toNat ≤ 20) : s.wrapLine = s.goto .finDispatch :=
  congrArg (State.goto · .finDispatch) (if_neg (show ¬ 21 ≤ s.column.toNat by omega))

/-- Everything FIN_WRAP can do (R75). -/
theorem State.wrapLine_cases (s : State) :
    (21 ≤ s.column.toNat ∧ s.wrapLine = (s.moveToRow s.nextRow).goto .finDispatch) ∨
    (s.column.toNat ≤ 20 ∧ s.wrapLine = s.goto .finDispatch) := by
  by_cases h : 21 ≤ s.column.toNat
  · exact .inl ⟨h, State.wrapLine_of_full h⟩
  · exact .inr ⟨by omega, State.wrapLine_of_not_full (by omega)⟩

@[simp] theorem State.perform_clear (s : State) : s.perform .clear = (s.emit .clear).goto .finHome := rfl

@[simp] theorem State.perform_print (s : State) (b : Byte) :
    s.perform (.print b) = ({ s with column := s.column + 1 }.emit (.printChar b)).goto .finDone := rfl

@[simp] theorem State.perform_lineBreak (s : State) :
    s.perform .lineBreak = (s.moveToRow s.nextRow).goto .finDone := rfl

/-- The three outcomes of the command decode (R48). -/
theorem decodeCommand_cases (b : Byte) :
    (b = clearByte ∧ decodeCommand b = .clear) ∨ (b = lineBreakByte ∧ decodeCommand b = .lineBreak) ∨
    (b ≠ clearByte ∧ b ≠ lineBreakByte ∧ decodeCommand b = .print b) := by
  by_cases h1 : b = clearByte
  · exact .inl ⟨h1, by simp [decodeCommand, h1]⟩
  · by_cases h2 : b = lineBreakByte
    · exact .inr (.inl ⟨h2, by simp [decodeCommand, h2, clearByte, lineBreakByte]⟩)
    · exact .inr (.inr ⟨h1, h2, by simp [decodeCommand, h1, h2]⟩)

/-! The choice of the next move -/

theorem State.nextMove_cons {s : State} {m : Move} {ms : List Move} (h : s.schedule = m :: ms) : s.nextMove = m := by
  simp [State.nextMove, h]

theorem State.takeMove_cons {s : State} {m : Move} {ms : List Move} (h : s.schedule = m :: ms) :
    s.takeMove = { s with schedule := ms } := by simp [State.takeMove, h]

end Sys2Proof.Machine
end

