-- ==== Sys2Proof/Laws/PerInstr.lean ====
section
/-!
SUPPORT. Families of statements made per instruction (LAWS.json): one lemma per constructor of `Instr`.
-/
namespace Sys2Proof.Laws.EncodedWord

/-- The code word of an instruction has the instruction's own format, a format that has words, and no bit above the
format's width (R14, R45, R48). -/
def Statement (i : Instr) : Prop :=
  ∀ c, encode i = some c → c.format = i.format ∧ ∃ n, i.format.width? = some n ∧ c.bits.toNat < 2 ^ n

/-- A row with bits of its format's width meets the statement. -/
theorem of_bits {i : Instr} {b : Byte} {n : Nat} (h : i.bits = some b) (hw : i.format.width? = some n)
    (hb : b.toNat < 2 ^ n) : Statement i := by
  intro c hc
  simp only [encode, h, Option.map_some, Option.some.injEq] at hc
  subst hc
  exact ⟨rfl, n, hw, hb⟩

/-- A row without bits meets it. -/
theorem of_none {i : Instr} (h : i.bits = none) : Statement i := by
  intro c hc
  simp [encode, h] at hc

theorem ttInit (half : InitStep) : Statement (.ttInit half) := of_none rfl
theorem ttTick : Statement .ttTick := of_none rfl
theorem ttNow : Statement .ttNow := of_none rfl
theorem ttElapsed (since : Tick) : Statement (.ttElapsed since) := of_none rfl
theorem ttUsToTicks (us : Nat) : Statement (.ttUsToTicks us) := of_none rfl
theorem ttWait (ref n : Tick) (next : Phase) : Statement (.ttWait ref n next) := of_none rfl
theorem edge (level : Bool) : Statement (.edge level) := of_none rfl
theorem capture : Statement .capture := of_bits rfl rfl (by decide)
theorem wait1 : Statement .wait1 := of_bits rfl rfl (by decide)
theorem sample1 : Statement .sample1 := of_bits rfl rfl (by decide)
theorem recapture : Statement .recapture := of_bits rfl rfl (by decide)
theorem wait2 : Statement .wait2 := of_bits rfl rfl (by decide)
theorem sample2 : Statement .sample2 := of_bits rfl rfl (by decide)
theorem accum : Statement .accum := of_bits rfl rfl (by decide)
theorem symReset : Statement .symReset := of_bits rfl rfl (by decide)
theorem symBit1 : Statement .symBit1 := of_bits rfl rfl (by decide)
theorem symBit0 : Statement .symBit0 := of_bits rfl rfl (by decide)
theorem finWrap : Statement .finWrap := of_bits rfl rfl (by decide)
theorem finDispatch : Statement .finDispatch := of_bits rfl rfl (by decide)
theorem cmdClear : Statement .cmdClear := of_bits rfl rfl (by decide)
theorem finHome : Statement .finHome := of_bits rfl rfl (by decide)
theorem cmdPrint (b : Byte) : Statement (.cmdPrint b) := of_bits rfl rfl b.isLt
theorem cmdLinebreak : Statement .cmdLinebreak := of_bits rfl rfl (by decide)
theorem finDone : Statement .finDone := of_bits rfl rfl (by decide)

end Sys2Proof.Laws.EncodedWord
end

