-- ==== Sys2Proof/Laws/Step.lean ====
section
/-!
SUPPORT. What `exec` and `step` come to: `exec` of each row as its shared operation, and the inversion of a step.
-/
namespace Sys2Proof.Machine

/-! `exec`, row by row -/

@[simp] theorem exec_ttTick (s : State) : exec .ttTick s = .next s.tickOnce := rfl
@[simp] theorem exec_edge (v : Bool) (s : State) : exec (.edge v) s = .next (s.driveLine v) := rfl
@[simp] theorem exec_ttInit_completes (d : Tick) (s : State) :
    exec (.ttInit (.completes d)) s = .next (s.completeInit d) := rfl
@[simp] theorem exec_ttNow (s : State) : exec .ttNow s = withTick s fun n => .next { s with ttResult := n } := rfl
@[simp] theorem exec_ttElapsed (r : Tick) (s : State) :
    exec (.ttElapsed r) s = withTick s fun n => .next { s with ttResult := elapsedTicks n r } := rfl
@[simp] theorem exec_ttUsToTicks_fits {us : Nat} {s : State} (h : s.cfg.conversion.ticks us ≤ 255) :
    exec (.ttUsToTicks us) s = .next { s with ttResult := BitVec.ofNat 8 (s.cfg.conversion.ticks us) } := if_pos h
@[simp] theorem exec_ttUsToTicks_refused {us : Nat} {s : State} (h : 255 < s.cfg.conversion.ticks us) :
    exec (.ttUsToTicks us) s = .refused .configurationRefused := if_neg (Nat.not_le.2 h)
@[simp] theorem exec_ttWait (r n : Tick) (p : Phase) (s : State) :
    exec (.ttWait r n p) s = withTick s fun t => .next (s.pollAt t r n s.phase p) := rfl
@[simp] theorem exec_capture (s : State) :
    exec .capture s = withTick s fun n => .next (s.captureAt n .wait1) := rfl
@[simp] theorem exec_recapture (s : State) :
    exec .recapture s = withTick s fun n => .next (s.captureAt n .wait2) := rfl
@[simp] theorem exec_wait1 (s : State) :
    exec .wait1 s = withTick s fun n => .next (s.pollAt n s.t0 s.cfg.thr .wait1 .sample1) := rfl
@[simp] theorem exec_wait2 (s : State) :
    exec .wait2 s = withTick s fun n => .next (s.pollAt n s.t0 s.cfg.thr .wait2 .sample2) := rfl
@[simp] theorem exec_sample1 (s : State) :
    exec .sample1 s = .next (if s.line then s.resetSymbol else s.goto .recapture) := rfl
@[simp] theorem exec_sample2 (s : State) : exec .sample2 s = .next ({ s with sym := s.line }.goto .accum) := rfl
@[simp] theorem exec_symReset (s : State) : exec .symReset s = .next s.resetSymbol := rfl
@[simp] theorem exec_accum (s : State) : exec .accum s = .next (s.accumulate s.sym) := rfl
@[simp] theorem exec_symBit1 (s : State) : exec .symBit1 s = .next (s.accumulate true) := rfl
@[simp] theorem exec_symBit0 (s : State) : exec .symBit0 s = .next (s.accumulate false) := rfl
@[simp] theorem exec_finWrap (s : State) : exec .finWrap s = .next s.wrapLine := rfl
@[simp] theorem exec_finDispatch (s : State) :
    exec .finDispatch s = .next (s.perform (decodeCommand s.result)) := rfl
@[simp] theorem exec_cmdClear (s : State) : exec .cmdClear s = .next s.fullClear := rfl
@[simp] theorem exec_finHome (s : State) : exec .finHome s = .next s.homeCursor := rfl
@[simp] theorem exec_cmdPrint (b : Byte) (s : State) : exec (.cmdPrint b) s = .next (s.printByte b) := rfl
@[simp] theorem exec_cmdLinebreak (s : State) : exec .cmdLinebreak s = .next s.breakLine := rfl
@[simp] theorem exec_finDone (s : State) : exec .finDone s = .next s.finishByte := rfl

/-! `step` -/

/-- A step that answers a next state ran an operation of the table or took an agent's step outside it. -/
theorem step_next_cases {s t : State} (h : step s = .next t) :
    (∃ i, s.takeMove.select s.nextMove = .run i ∧ exec i s.takeMove = .next t) ∨
    s.takeMove.select s.nextMove = .become t := by
  unfold step at h
  split at h
  · rename_i i hi; exact .inl ⟨i, hi, h⟩
  · rename_i u hu; cases h; exact .inr hu

/-- Everything a block step can do: `u` is the state with the move taken off. -/
theorem step_block_cases {s t u : State} (hm : s.nextMove = .block) (hu : s.takeMove = u) (h : step s = .next t) :
    (s.phase = .idle ∧ t = u) ∨
    (s.phase = .capture ∧ u.tstate = .ready ∧ t = u.captureAt u.tcnt .wait1) ∨
    (s.phase = .wait1 ∧ u.tstate = .ready ∧ t = u.pollAt u.tcnt u.t0 u.cfg.thr .wait1 .sample1) ∨
    (s.phase = .sample1 ∧ u.line = true ∧ t = u.resetSymbol) ∨
    (s.phase = .sample1 ∧ u.line = false ∧ t = u.goto .recapture) ∨
    (s.phase = .recapture ∧ u.tstate = .ready ∧ t = u.captureAt u.tcnt .wait2) ∨
    (s.phase = .wait2 ∧ u.tstate = .ready ∧ t = u.pollAt u.tcnt u.t0 u.cfg.thr .wait2 .sample2) ∨
    (s.phase = .sample2 ∧ t = { u with sym := u.line }.goto .accum) ∨
    (s.phase = .accum ∧ t = u.accumulate u.sym) ∨
    (s.phase = .finWrap ∧ t = u.wrapLine) ∨
    (s.phase = .finDispatch ∧ t = u.perform (decodeCommand u.result)) ∨
    (s.phase = .finHome ∧ t = u.homeCursor) ∨
    (s.phase = .finDone ∧ t = u.finishByte) := by
  have hp : u.phase = s.phase := by rw [← hu]; exact s.takeMove_phase
  simp only [step, hm, hu, State.select, hp] at h
  cases hs : s.phase <;> simp only [hs, Phase.row] at h
  case idle => cases h; simp
  case capture => rw [exec_capture] at h; have := withTick_next_iff.1 h; cases this.2; simp [this.1]
  case wait1 => rw [exec_wait1] at h; have := withTick_next_iff.1 h; cases this.2; simp [this.1]
  case recapture => rw [exec_recapture] at h; have := withTick_next_iff.1 h; cases this.2; simp [this.1]
  case wait2 => rw [exec_wait2] at h; have := withTick_next_iff.1 h; cases this.2; simp [this.1]
  case sample1 =>
    rw [exec_sample1] at h
    cases hl : u.line <;> rw [hl] at h <;> cases h <;> simp
  all_goals cases h; simp [sampleLine]

/-- Everything a step of another agent can do: `u` is the state with the move taken off. -/
theorem step_other_cases {s t u : State} (hm : s.nextMove ≠ .block) (hu : s.takeMove = u) (h : step s = .next t) :
    (s.nextMove = .tick ∧ t = u.tickOnce) ∨
    (∃ v, s.nextMove = .line v ∧ t = u.driveLine v) ∨
    (s.nextMove = .initBegins ∧ u.tstate ≠ .initializing ∧ t = { u with tstate := .initializing }) ∨
    (∃ d, s.nextMove = .initCompletes d ∧ t = u.completeInit d) ∨
    (s.nextMove = .sinkInit ∧ t = u) ∨
    (s.nextMove = .enableEdges ∧ t = u.enableEdges) ∨
    ((s.nextMove = .now ∨ ∃ r, s.nextMove = .elapsed r) ∧
      ∃ r, t = { u with ttResult := r }) ∨
    (∃ a b c, s.nextMove = .hardwareReset a b c ∧ t = u.hardwareReset a b c) := by
  simp only [step, hu] at h
  cases hn : s.nextMove <;> simp only [hn, State.select] at h
  case block => exact absurd hn hm
  case tick => cases h; simp
  case line v => cases h; simp
  case initBegins =>
    simp only [exec, execTtInit] at h
    split at h
    · cases h
    · rename_i hi; cases h; simp [hi]
  case initCompletes d => cases h; simp
  case sinkInit => cases h; simp
  case enableEdges => cases h; simp
  case now => rw [exec_ttNow] at h; have := withTick_next_iff.1 h; cases this.2; simp
  case elapsed r => rw [exec_ttElapsed] at h; have := withTick_next_iff.1 h; cases this.2; simp
  case hardwareReset a b c =>
    cases h; exact .inr (.inr (.inr (.inr (.inr (.inr (.inr ⟨a, b, c, rfl, rfl⟩))))))

/-- A run of `k + 1` steps is a step and a run of `k`. -/
theorem run_succ_of_step {s t : State} (h : step s = .next t) (k : Nat) : run (k + 1) s = run k t := by
  simp only [run, h]

/-- Runs compose. -/
theorem run_add {j : Nat} : ∀ {s t : State}, run j s = .next t → ∀ k, run (j + k) s = run k t := by
  induction j with
  | zero => intro s t h k; cases h; rw [Nat.zero_add]
  | succ j ih =>
    intro s t h k
    cases hq : step s with
    | next u =>
      rw [run_succ_of_step hq] at h
      rw [show j + 1 + k = (j + k) + 1 by omega, run_succ_of_step hq]
      exact ih h k
    | fault r => simp only [run, hq] at h; cases h
    | refused r => simp only [run, hq] at h; cases h

/-- `run` is the host's run of this machine. -/
theorem run_eq_core_run (k : Nat) : ∀ s : State, run k s = Host.Core.run Sys2Proof.core k s := by
  induction k with
  | zero => intro s; rfl
  | succ k ih =>
    intro s
    refine Eq.trans ?_ (Host.Core.run.eq_2 Sys2Proof.core s k).symm
    cases h : step s with
    | next t =>
      have h' : Sys2Proof.core.step s = .next t := h
      rw [run_succ_of_step h, h']; exact ih t
    | fault r =>
      have h' : Sys2Proof.core.step s = .fault r := h
      simp only [run, h, h']; rfl
    | refused r =>
      have h' : Sys2Proof.core.step s = .refused r := h
      simp only [run, h, h']; rfl

end Sys2Proof.Machine
end

