-- ==== Sys2Proof/Tests/Slice0.lean ====
section
/-!
SUPPORT. Small tests with expected values from spec/95_test_vectors.md and from the rules' own examples, the
well-formedness smoke test, and one witness for the hypotheses of each obligation that has any.
-/
namespace Sys2Proof.Tests
open Sys2Proof.Machine

/-! ## Helpers: the example values of 95_test_vectors.md (THR = 10, LINE_INIT = 1) -/

def chip (p : EdgePolicy) : Params where
  thr := 10
  tickRate := 1
  conversion := { table := [(10, 10), (25, 255), (40, 300)], base := 0 }
  constants := [10, 25]
  edgePolicy := p
  lineInit := true
  maxTicksBetweenPolls := none
  debugPin := false

/-- A booted machine waiting for an edge. -/
def booted (p : EdgePolicy) : State :=
  { State.resetWith (chip p) 0 0 false with tstate := .ready, edgeEn := true }

def dropped : State := booted .drop

def latched : State := booted .latchOne

/-- The same machine with a bound of three ticks between polls, in window 1, `gap` of them gone. -/
def bounded (gap : Nat) : State :=
  { dropped with cfg := { chip .drop with maxTicksBetweenPolls := some 3 }, phase := .wait1, pollGap := gap }

/-- In a phase, with these register values. -/
def inPhase (p : Phase) (tcnt t0 : Tick) : State := { dropped with phase := p, tcnt := tcnt, t0 := t0 }

/-- At ACCUM's operands: the accumulator as given. -/
def withAcc (c : BitCount) (r : Byte) : State := { dropped with phase := .accum, bitCount := c, result := r }

/-- In a finalize, at a phase, with a cursor and the completed byte. -/
def finalizing (p : Phase) (col : Column) (row : Row) (r : Byte) : State :=
  { dropped with phase := p, bitCount := 8, column := col, row := row, result := r }

/-- With these moves to come. -/
def moving (s : State) (ms : List Move) : State := { s with schedule := ms }

/-- What a view shows of the next state, where the outcome is one. -/
def view {α : Type} (f : State → α) : Host.Outcome State Fault Refusal → Option α
  | .next t => some (f t)
  | _ => none

def faultOf : Host.Outcome State Fault Refusal → Option Fault
  | .fault r => some r
  | _ => none

def refusalOf : Host.Outcome State Fault Refusal → Option Refusal
  | .refused r => some r
  | _ => none

/-- What a finalize shows: events, cursor, accumulator. -/
def shown (s : State) : List SinkEvent × Column × Row × BitCount × Byte :=
  (s.trace, s.column, s.row, s.bitCount, s.result)

/-! ## Well-formedness smoke test -/

theorem test_wf_refuses_print_of_clear_byte : (Instr.cmdPrint 0x01).wf = false := by decide
theorem test_wf_refuses_print_of_linebreak_byte : (Instr.cmdPrint 0x00).wf = false := by decide
theorem test_wf_admits_print_bounds : (Instr.cmdPrint 0x02).wf = true ∧ (Instr.cmdPrint 0xFF).wf = true := by decide

/-- A configuration with this THR and this conversion of its one constant, 10. -/
def raw (thr ticks : Nat) : RawConfig where
  thr := thr
  tickRate := 1
  conversion := { table := [(10, ticks)], base := 0 }
  constants := [10]
  edgePolicy := .drop
  lineInit := true
  maxTicksBetweenPolls := none
  debugPin := false

/-- V-TT, Configuration: THR = 256 is refused, 255 admitted. -/
theorem test_wf_refuses_thr_256 : (raw 256 10).thrFits = false ∧ (raw 256 10).wf = false := by decide
theorem test_wf_admits_thr_255 : (raw 255 10).wf = true ∧ (raw 0 10).wf = true := by decide

/-- V-TT, Configuration: usToTicks(10) = 300 is refused. -/
theorem test_wf_refuses_conversion_300 :
    (raw 10 300).constantsFit = false ∧ (raw 10 300).wf = false := by decide

theorem test_configure_refuses : refusalOf (configure (raw 256 10) 0 0 false) = some .configurationRefused := by decide

/-- R7: the configuration's own function stays with the machine, on durations it does not list too. -/
theorem test_configure_keeps_conversion :
    view (fun t => t.cfg.conversion) (configure (raw 10 12) 0 0 false) = some (raw 10 12).conversion := by decide

/-! ## Decoding: words written out from 10_state.md R14 and 30_encoding.md R45, R46, R48 -/

theorem test_decode_phases_classifier :
    decode ⟨.phase, 0b0001⟩ = .instr .capture ∧ decode ⟨.phase, 0b0010⟩ = .instr .wait1 ∧
    decode ⟨.phase, 0b0011⟩ = .instr .sample1 ∧ decode ⟨.phase, 0b0100⟩ = .instr .recapture ∧
    decode ⟨.phase, 0b0101⟩ = .instr .wait2 ∧ decode ⟨.phase, 0b0110⟩ = .instr .sample2 := by decide

theorem test_decode_phases_accumulate_finalize :
    decode ⟨.phase, 0b0111⟩ = .instr .accum ∧ decode ⟨.phase, 0b1000⟩ = .instr .finWrap ∧
    decode ⟨.phase, 0b1001⟩ = .instr .finDispatch ∧ decode ⟨.phase, 0b1010⟩ = .instr .finHome ∧
    decode ⟨.phase, 0b1011⟩ = .instr .finDone := by decide

theorem test_decode_sample_words :
    decode ⟨.sampleWord, 0b11⟩ = .instr .symReset ∧ decode ⟨.sampleWord, 0b10⟩ = .instr .symReset ∧
    decode ⟨.sampleWord, 0b01⟩ = .instr .symBit1 ∧ decode ⟨.sampleWord, 0b00⟩ = .instr .symBit0 := by decide

theorem test_decode_command_bytes :
    decode ⟨.commandByte, 0b00000001⟩ = .instr .cmdClear ∧ decode ⟨.commandByte, 0b00000000⟩ = .instr .cmdLinebreak ∧
    decode ⟨.commandByte, 0b00000010⟩ = .instr (.cmdPrint 2) ∧
    decode ⟨.commandByte, 0b01000001⟩ = .instr (.cmdPrint 0x41) ∧
    decode ⟨.commandByte, 0b11111111⟩ = .instr (.cmdPrint 255) := by decide

theorem test_decode_rejects_by_name :
    decode ⟨.phase, 0b0000⟩ = .rejected .idlePhase ∧ decode ⟨.phase, 0b1100⟩ = .rejected .unusedPhase ∧
    decode ⟨.phase, 0b1111⟩ = .rejected .unusedPhase ∧ decode ⟨.phase, 0b10001⟩ = .rejected .tooWide ∧
    decode ⟨.sampleWord, 0b100⟩ = .rejected .tooWide ∧ decode ⟨.interface, 0⟩ = .rejected .noBitPattern := by decide

/-- Log 9: the untagged reading of a table row's bits. -/
theorem test_decode_table_words :
    decodeTableWord 4 0xB = some .finDone ∧ decodeTableWord 2 0b01 = some .symBit1 ∧
    decodeTableWord 8 0x41 = some (.cmdPrint 0x41) ∧ decodeTableWord 8 0 = some .cmdLinebreak ∧
    decodeTableWord 4 0xC = none ∧ decodeTableWord 2 4 = none := by decide

/-- P2: the encoding of `BYTE 0x42`. -/
theorem test_byte_statement_words :
    (SymbolStatement.byte 0x42).words = [0b00, 0b01, 0b00, 0b00, 0b00, 0b00, 0b01, 0b00] := by decide

/-- P4: the encoding of `TEXT "Hi"`. -/
theorem test_text_statement_words :
    (SymbolStatement.text ['H', 'i']).words =
      [0, 0, 0, 1, 0, 0, 1, 0, 1, 0, 0, 1, 0, 1, 1, 0] := by decide

/-! ## Tick timer: V-TT -/

theorem test_ttInit_completes :
    view (fun t => (t.tcnt, t.tstate))
      (exec (.ttInit (.completes 17)) { dropped with tstate := .initializing }) = some (17, .ready) := by decide

theorem test_ttInit_reentered :
    faultOf (exec (.ttInit .begins) { dropped with tstate := .initializing }) = some .initReentered := by decide

theorem test_ttTick_wraps : view State.tcnt (exec .ttTick { dropped with tcnt := 255 }) = some 0 := by decide

theorem test_ttTick_stopped :
    view State.tcnt (exec .ttTick { dropped with tcnt := 9, tstate := .uninit }) = some 9 := by decide

theorem test_ttNow : view (fun t => (t.ttResult, t.tcnt)) (exec .ttNow { dropped with tcnt := 200 }) = some (200, 200) := by
  decide

theorem test_ttNow_before_init : faultOf (exec .ttNow { dropped with tstate := .uninit }) = some .timerNotReady := by
  decide

/-- W1. -/
theorem test_ttElapsed_wraps : view State.ttResult (exec (.ttElapsed 250) { dropped with tcnt := 10 }) = some 16 := by
  decide

theorem test_ttElapsed_largest :
    view State.ttResult (exec (.ttElapsed 1) { dropped with tcnt := 0 }) = some 255 := by decide

theorem test_ttUsToTicks : view State.ttResult (exec (.ttUsToTicks 10) dropped) = some 10 := by decide

theorem test_ttUsToTicks_too_large :
    refusalOf (exec (.ttUsToTicks 40) dropped) = some .configurationRefused := by decide

theorem test_ttWait_stays : view State.phase (exec (.ttWait 250 10 .sample1) (inPhase .wait1 3 250)) = some .wait1 := by
  decide

theorem test_ttWait_leaves :
    view State.phase (exec (.ttWait 250 10 .sample1) (inPhase .wait1 4 250)) = some .sample1 := by decide

/-! ## Classifier: V-EDGE, V-PWC -/

theorem test_edge_starts_activation :
    view (fun t => (t.phase, t.line)) (exec (.edge false) dropped) = some (.capture, false) := by decide

theorem test_edge_latched_in_activation :
    view (fun t => (t.phase, t.edgePending)) (exec (.edge false) { latched with phase := .wait1 }) =
      some (.wait1, true) := by decide

theorem test_capture : view (fun t => (t.t0, t.phase)) (exec .capture (inPhase .capture 250 0)) = some (250, .wait1) := by
  decide

/-- V-TT's last corner: a repeat init under a running window. -/
theorem test_wait1_during_init :
    faultOf (exec .wait1 { inPhase .wait1 4 250 with tstate := .initializing }) = some .timerNotReady := by decide

theorem test_wait1_leaves : view State.phase (exec .wait1 (inPhase .wait1 4 250)) = some .sample1 := by decide

theorem test_sample1_low : view State.phase (exec .sample1 { dropped with phase := .sample1, line := false }) =
    some .recapture := by decide

theorem test_sample1_high_is_reset :
    view (fun t => (t.bitCount, t.result, t.phase))
      (exec .sample1 { dropped with phase := .sample1, bitCount := 3, result := 0x05 }) = some (0, 0, .idle) := by decide

theorem test_symReset_discards_partial_byte :
    view (fun t => (t.bitCount, t.result, t.phase, t.trace))
      (exec .symReset { withAcc 7 0x7F with phase := .sample1 }) = some (0, 0, .idle, []) := by decide

theorem test_recapture :
    view (fun t => (t.t0, t.phase)) (exec .recapture (inPhase .recapture 4 250)) = some (4, .wait2) := by decide

theorem test_wait2_stays : view State.phase (exec .wait2 (inPhase .wait2 13 4)) = some .wait2 := by decide

theorem test_wait2_leaves : view State.phase (exec .wait2 (inPhase .wait2 14 4)) = some .sample2 := by decide

theorem test_sample2_high : view (fun t => (t.sym, t.phase)) (exec .sample2 (inPhase .sample2 0 0)) =
    some (true, .accum) := by decide

theorem test_sample2_low :
    view (fun t => (t.sym, t.phase)) (exec .sample2 { inPhase .sample2 0 0 with line := false, sym := true }) =
      some (false, .accum) := by decide

/-! ## Accumulator: V-ACC -/

theorem test_accum_takes_sym :
    view (fun t => (t.result, t.bitCount, t.phase)) (exec .accum { withAcc 7 0x00 with sym := true }) =
      some (0x80, 8, .finWrap) := by decide

theorem test_accum_latched_edge :
    view (fun t => (t.phase, t.edgePending))
      (exec .accum { latched with phase := .accum, edgePending := true }) = some (.capture, false) := by decide

theorem test_symBit1 : view (fun t => (t.result, t.bitCount, t.phase)) (exec .symBit1 (withAcc 2 0x01)) =
    some (0x05, 3, .idle) := by decide

theorem test_symBit1_eighth : view (fun t => (t.result, t.bitCount, t.phase)) (exec .symBit1 (withAcc 7 0x7F)) =
    some (0xFF, 8, .finWrap) := by decide

theorem test_symBit0 : view (fun t => (t.result, t.bitCount, t.phase)) (exec .symBit0 (withAcc 2 0x01)) =
    some (0x01, 3, .idle) := by decide

theorem test_symBit0_eighth : view (fun t => (t.result, t.bitCount, t.phase)) (exec .symBit0 (withAcc 7 0x01)) =
    some (0x01, 8, .finWrap) := by decide

/-! ## Command decoder: V-CMD -/

theorem test_finWrap_row_wraps : view shown (exec .finWrap (finalizing .finWrap 21 7 0x41)) =
    some ([.setCursor 0 0], 0, 0, 8, 0x41) := by decide

theorem test_finWrap_not_full : view shown (exec .finWrap (finalizing .finWrap 20 7 0x41)) =
    some ([], 20, 7, 8, 0x41) := by decide

theorem test_finDispatch_prints : view shown (exec .finDispatch (finalizing .finDispatch 20 0 0x41)) =
    some ([.printChar 0x41], 21, 0, 8, 0x41) := by decide

theorem test_finDispatch_breaks : view shown (exec .finDispatch (finalizing .finDispatch 9 2 0x00)) =
    some ([.setCursor 0 3], 0, 3, 8, 0x00) := by decide

theorem test_cmdClear : view (fun t => (t.trace, t.column, t.row, t.phase)) (exec .cmdClear (finalizing .finDispatch 5 3 0x01)) =
    some ([.clear], 5, 3, .finHome) := by decide

theorem test_finHome : view (fun t => (t.trace, t.column, t.row, t.phase)) (exec .finHome (finalizing .finHome 5 3 0x01)) =
    some ([.setCursor 0 0], 0, 0, .finDone) := by decide

theorem test_cmdPrint : view shown (exec (.cmdPrint 0x1F) (finalizing .finDispatch 3 4 0x1F)) =
    some ([.printChar 0x1F], 4, 4, 8, 0x1F) := by decide

theorem test_cmdLinebreak_row_wraps : view shown (exec .cmdLinebreak (finalizing .finDispatch 0 7 0x00)) =
    some ([.setCursor 0 0], 0, 0, 8, 0x00) := by decide

theorem test_finDone : view (fun t => (t.column, t.bitCount, t.result, t.phase)) (exec .finDone (finalizing .finDone 1 0 0x41)) =
    some (1, 0, 0, .idle) := by decide

/-! ## The symbol level: P3, V-CMD -/

/-- P3, program B: a Reset recovers the framing. -/
theorem test_program_p3b :
    shown (dropped.runWords ([0b01, 0b01, 0b01, 0b10] ++ (SymbolStatement.byte 0x30).words)) =
      ([.printChar 0x30], 1, 0, 0, 0) := by decide

/-- P3, program A: without it the receiver stays out of phase. -/
theorem test_program_p3a :
    shown (dropped.runWords ([0b01, 0b01, 0b01] ++ (SymbolStatement.byte 0x30).words)) =
      ([.printChar 0x87], 1, 0, 3, 0x01) := by decide

/-- V-CMD: a clear at a full line is preceded by a wrap. -/
theorem test_finalize_clear_at_full_line :
    shown (finalizing .finWrap 21 7 0x01).finalizeByte = ([.setCursor 0 0, .clear, .setCursor 0 0], 0, 0, 0, 0) := by
  decide

/-- V-CMD: a line break at a full line advances two rows. -/
theorem test_finalize_break_at_full_line :
    shown (finalizing .finWrap 21 6 0x00).finalizeByte = ([.setCursor 0 7, .setCursor 0 0], 0, 0, 0, 0) := by decide

/-! ## Witnesses: states that meet the hypotheses of each obligation that has any -/

def uninit : State := { dropped with tstate := .uninit }

def beginning : State := { dropped with tstate := .initializing }

theorem witness_TtInitBeginsAndCompletes :
    beginning.tstate = .initializing ∧ uninit.tstate ≠ .initializing ∧ dropped.tstate ≠ .initializing := by decide

theorem witness_TtTickAddsOneModulo256 :
    (bounded 2).tstate = .ready ∧ 3 ∈ (bounded 2).cfg.maxTicksBetweenPolls ∧ (bounded 2).phase = .wait1 ∧
    (bounded 2).pollGap < 3 ∧ 3 ≤ (bounded 3).pollGap ∧ uninit.tstate ≠ .ready ∧
    dropped.cfg.maxTicksBetweenPolls = none := by decide

theorem witness_TtNowReturnsCounter : dropped.tstate = .ready ∧ uninit.tstate ≠ .ready := by decide

theorem witness_TtElapsedIsCyclicDistance :
    dropped.tstate = .ready ∧ uninit.tstate ≠ .ready ∧ beginning.tstate ≠ .ready := by decide

def counting : State := moving { dropped with tcnt := 250 } [.tick, .tick, .elapsed 250, .block]

theorem witness_ElapsedCountsTicksModulo256 :
    counting.tstate = .ready ∧ counting.cfg.maxTicksBetweenPolls = none ∧
    counting.schedule = List.replicate 2 .tick ++ .elapsed counting.tcnt :: [.block] := by decide

theorem witness_TtUsToTicksFitsOrIsRefused :
    dropped.cfg.conversion.ticks 25 = 255 ∧ 255 < dropped.cfg.conversion.ticks 40 := by decide

theorem witness_AdmittedConstantsConvert :
    view (fun s => view (fun t => (t.tstate, t.tcnt)) (run 2 { s with schedule := [.initBegins, .initCompletes 250] }))
      (configure (raw 255 255) 0 0 false) = some (some (.ready, 250)) ∧
    10 ∈ (raw 255 255).constants := by decide

theorem witness_TtWaitPollsOnce : dropped.tstate = .ready ∧ uninit.tstate ≠ .ready ∧ (0 : Tick) = 0 := by decide

theorem witness_WindowsAreTtWaits :
    (inPhase .wait1 4 250).phase = .wait1 ∧ (inPhase .wait2 14 4).phase = .wait2 := by decide

/-- G = 246 = 256 − THR, the largest gap R59 allows; the poll before saw 9. -/
def gapped : State := moving (inPhase .wait1 3 250) (List.replicate 246 .tick ++ [.block])

theorem witness_BoundedGapLeavesWindowOnTime :
    gapped.tstate = .ready ∧ gapped.phase = .wait1 ∧ gapped.cfg.maxTicksBetweenPolls = none ∧
    (gapped.tcnt - gapped.t0).toNat < gapped.cfg.thr.toNat ∧ 246 + gapped.cfg.thr.toNat ≤ 256 ∧
    gapped.schedule = List.replicate 246 .tick ++ .block :: [] := ⟨rfl, rfl, rfl, by decide, by decide, rfl⟩

def stalled : State := moving (inPhase .wait2 3 250) [.block, .block, .tick]

theorem witness_NoTicksNoExit :
    stalled.tstate = .ready ∧ stalled.phase = .wait2 ∧ (stalled.tcnt - stalled.t0).toNat < stalled.cfg.thr.toNat ∧
    stalled.schedule = List.replicate 2 .block ++ [.tick] := by decide

theorem witness_CaptureStartsWindowOne :
    (inPhase .capture 250 0).tstate = .ready ∧ { inPhase .capture 250 0 with tstate := .uninit }.tstate ≠ .ready := by
  decide

theorem witness_RecaptureStartsWindowTwo :
    (inPhase .recapture 4 250).tstate = .ready ∧
    { inPhase .recapture 4 250 with tstate := .initializing }.tstate ≠ .ready := by decide

theorem witness_WaitOnePollsWindow :
    (inPhase .wait1 3 250).tstate = .ready ∧ { inPhase .wait1 3 250 with tstate := .uninit }.tstate ≠ .ready := by decide

theorem witness_WaitTwoPollsWindow :
    (inPhase .wait2 14 4).tstate = .ready ∧ { inPhase .wait2 14 4 with tstate := .uninit }.tstate ≠ .ready := by decide

theorem witness_ReturnArmsOrTakesLatchedEdge :
    { latched with edgePending := true }.cfg.edgePolicy = .latchOne ∧ { latched with edgePending := true }.edgePending = true ∧
    latched.edgePending = false ∧ dropped.cfg.edgePolicy = .drop := by decide

theorem witness_SampleOneClassifiesReset : dropped.line = true ∧ { dropped with line := false }.line = false := by decide

theorem witness_BitOneSetsItsPosition :
    (withAcc 6 0x3F).bitCount.toNat + 1 < 8 ∧ 8 ≤ (withAcc 7 0x7F).bitCount.toNat + 1 := by decide

theorem witness_BitZeroOnlyCounts :
    (withAcc 6 0x3F).bitCount.toNat + 1 < 8 ∧ 8 ≤ (withAcc 7 0x01).bitCount.toNat + 1 := by decide

theorem witness_AccumFollowsSym : { dropped with sym := true }.sym = true ∧ dropped.sym = false := by decide

theorem witness_BitOneAddsPowerOfTwo :
    (withAcc 7 0x7F).AccInv ∧ (withAcc 7 0x7F).phase.finalizing = false ∧
    view State.result (exec .symBit1 (withAcc 7 0x7F)) = some 0xFF := by decide

theorem witness_EightBitsAssembleTheByte : dropped.bitCount = 0 ∧ dropped.result = 0 := by decide

theorem witness_FinWrapWrapsFullLine :
    21 ≤ (finalizing .finWrap 21 7 0x41).column.toNat ∧ (finalizing .finWrap 20 7 0x41).column.toNat ≤ 20 := by decide

theorem witness_FinDispatchSelectsCommand :
    (finalizing .finDispatch 5 3 0x01).result.toNat = 1 ∧ (finalizing .finDispatch 5 3 0x00).result.toNat = 0 ∧
    2 ≤ (finalizing .finDispatch 5 3 0x02).result.toNat := by decide

/-- Each of the three commands, at a full line and just below it. -/
theorem witness_FinalizeEmitsTableEvents :
    (∀ p ∈ [(21, 0x01, 4, 1), (20, 0x01, 4, 0), (21, 0x00, 3, 1), (20, 0x00, 3, 0), (21, 0x02, 3, 1), (20, 0xFF, 3, 0)],
      let s := moving (finalizing .finWrap (BitVec.ofNat 5 p.1) 7 (BitVec.ofNat 8 p.2.1))
        (List.replicate p.2.2.1 .block ++ [.tick])
      s.phase = .finWrap ∧ s.column.toNat ≤ 21 ∧ p.2.2.2 = (if s.column.toNat = 21 then 1 else 0) ∧
        s.schedule = List.replicate (if s.result = 0x01 then 4 else 3) .block ++ [.tick]) := by decide

theorem witness_TwentySecondCharacterWraps :
    dropped.column = 0 ∧ (∀ b ∈ List.replicate 21 (0x41 : Byte), 2 ≤ b.toNat) ∧
    (List.replicate 21 (0x41 : Byte)).length = 21 ∧ 2 ≤ (0x56 : Byte).toNat := by decide

theorem witness_DecodeUndoesEncode :
    (Instr.cmdPrint 0x02).wf = true ∧ encode (.cmdPrint 0x02) = some ⟨.commandByte, 0x02⟩ ∧
    Instr.ttTick.wf = true ∧ encode .ttTick = none ∧ encode (.ttWait 0 0 .idle) = none := by decide

theorem witness_EncodeUndoesDecode :
    decode ⟨.sampleWord, 0b11⟩ = .instr .symReset ∧ decode ⟨.phase, 0xB⟩ = .instr .finDone := by decide

theorem witness_StepRunsDecodedInstruction :
    (moving (inPhase .wait1 3 250) [.block]).nextMove = .block ∧
    decode ⟨.phase, (inPhase .wait1 3 250).phase.code.zeroExtend 8⟩ = .instr .wait1 ∧
    (moving dropped [.block]).nextMove = .block ∧ dropped.phase = .idle ∧
    (moving dropped [.tick]).nextMove = .tick ∧ (moving dropped [.line false]).nextMove = .line false ∧
    (moving dropped [.initBegins]).nextMove = .initBegins ∧
    (moving dropped [.initCompletes 9]).nextMove = .initCompletes 9 ∧ (moving dropped [.now]).nextMove = .now ∧
    (moving dropped [.elapsed 9]).nextMove = .elapsed 9 := by decide

theorem witness_PlacedRowRunsNext :
    decodeTableWord 4 0x1 = some .capture ∧ decodeTableWord 2 0b10 = some .symReset ∧
    decodeTableWord 8 0x41 = some (.cmdPrint 0x41) := by decide

theorem witness_BlockStepFollowsTransitions :
    (moving (inPhase .wait1 4 250) [.block]).nextMove = .block ∧
    view State.phase (step (moving (inPhase .wait1 4 250) [.block])) = some .sample1 := by decide

theorem witness_EnvironmentKeepsBlockRegisters :
    (moving dropped [.line false]).nextMove = .line false ∧
    view State.phase (step (moving dropped [.line false])) = some .capture := by decide

/-- One step for each writer: each changes its register. -/
theorem witness_EachPortHasItsWriter :
    view State.tcnt (step (moving dropped [.tick])) = some 1 ∧
    view State.line (step (moving dropped [.line false])) = some false ∧
    view State.tstate (step (moving dropped [.initBegins])) = some .initializing ∧
    view State.edgeEn (step (moving { dropped with edgeEn := false } [.enableEdges])) = some true := by decide

theorem witness_ConfigurationNeverChanges :
    view (fun t => t.cfg.thr) (step (moving dropped [.hardwareReset 1 2 true])) = some 10 := by decide

theorem witness_TraceOnlyGrows :
    view State.trace (step (moving (finalizing .finDispatch 0 0 0x41) [.block])) = some [.printChar 0x41] ∧
    view (fun t => (t.trace, t.past)) (step (moving { dropped with trace := [.clear] } [.hardwareReset 1 2 true])) =
      some ([], [.clear]) := by decide

theorem witness_TraceIsNeverRead :
    (moving (finalizing .finWrap 21 7 0x41) [.block]).nextMove = .block ∧
    view State.phase (step (moving (finalizing .finWrap 21 7 0x41) [.block])) = some .finDispatch := by decide

theorem witness_TickOriginIsIrrelevant :
    (moving (inPhase .wait1 3 250) [.block]).nextMove = .block ∧
    view State.phase (step (moving (inPhase .wait1 3 250) [.block])) = some .wait1 ∧
    view State.tcnt (step (moving (inPhase .wait1 255 250) [.tick])) = some 0 ∧
    view State.phase (step (moving dropped [.line false])) = some .capture := by decide

theorem witness_RowChangeZeroesColumn :
    view (fun t => (t.row, t.column)) (step (moving (finalizing .finWrap 21 7 0x41) [.block])) = some (0, 0) ∧
    (finalizing .finWrap 21 7 0x41).row ≠ 0 := by decide

theorem witness_AccumulatorClearedAtThreePoints :
    (withAcc 3 0x05).bitCount ≠ 0 ∧ (finalizing .finDone 1 0 0x41).Inv ∧
    view (fun t => (t.bitCount, t.result)) (step (moving (finalizing .finDone 1 0 0x41) [.block])) = some (0, 0) ∧
    view (fun t => (t.bitCount, t.result)) (step (moving (withAcc 3 0x05) [.hardwareReset 1 2 true])) = some (0, 0) ∧
    (moving { withAcc 3 0x05 with phase := .sample1 } [.block]).Inv ∧
    (moving { withAcc 3 0x05 with phase := .sample1 } [.block]).line = true ∧
    view (fun t => (t.bitCount, t.result)) (step (moving { withAcc 3 0x05 with phase := .sample1 } [.block])) =
      some (0, 0) := by decide

theorem witness_OnlyTheTwoFaults :
    faultOf (step (moving uninit [.now])) = some .timerNotReady ∧
    faultOf (step (moving { uninit with phase := .wait2 } [.block])) = some .timerNotReady ∧
    faultOf (step (moving beginning [.initBegins])) = some .initReentered := by decide

theorem witness_OnlyRefusalIsTheConversion :
    refusalOf (exec (.ttUsToTicks 40) dropped) = some .configurationRefused ∧
    refusalOf (exec (.ttUsToTicks 25) dropped) = none := by decide

theorem witness_EveryStepKeepsInvariant :
    (moving (withAcc 7 0x7F) [.block]).Inv ∧
    view (fun t => (t.phase, t.bitCount)) (step (moving (withAcc 7 0x7F) [.block])) = some (.finWrap, 8) := by decide

theorem witness_ResetLeavesTheTableValues :
    (moving (finalizing .finHome 5 3 0x01) [.hardwareReset 7 8 true]).nextMove = .hardwareReset 7 8 true := by decide

theorem witness_ConfigurationAdmittedExactlyByTheRule :
    255 < (raw 256 10).thr ∧ (∃ u ∈ (raw 10 256).constants, 255 < (raw 10 256).conversion.ticks u) ∧
    (raw 255 255).thr ≤ 255 ∧ ∀ u ∈ (raw 255 255).constants, (raw 255 255).conversion.ticks u ≤ 255 := by decide

theorem witness_BootSequenceArms :
    uninit.tstate ≠ .initializing ∧
    (moving uninit ((TickStatement.boot 250).moves ++ [.block])).schedule =
      (TickStatement.boot 250).moves ++ [.block] := by decide

/-- R99: an edge source enabled too early. -/
def early : State := moving uninit [.line false, .block, .tick]

theorem witness_EdgeBeforeInitFaultsAtCapture :
    early.tstate ≠ .ready ∧ early.edgeEn = true ∧ early.phase = .idle ∧ early.line = true ∧
    early.schedule = .line false :: .block :: [.tick] := by decide

/-- The least and the largest tick counts of a window. -/
def delivering (s1 s2 : Bool) : State := moving dropped (deliver 10 255 s1 s2 ++ [.tick])

theorem witness_ActivationRefinesSymbolLevel :
    (delivering false true).Armed ∧ (delivering false true).Inv ∧ (delivering false true).line = true ∧
    (delivering false true).cfg.maxTicksBetweenPolls = none ∧ (delivering false true).cfg.thr.toNat ≤ 10 ∧
    (delivering false true).schedule = deliver 10 255 false true ++ [.tick] := by
  refine ⟨by decide, by decide, rfl, rfl, by decide, rfl⟩

theorem witness_ByteStatementRunsItsCommand :
    dropped.bitCount = 0 ∧ dropped.result = 0 ∧ dropped.column.toNat ≤ 21 ∧
    { dropped with column := 21 }.column.toNat ≤ 21 := by decide

theorem witness_EveryRunKeepsInvariant :
    (moving dropped [.line false, .block]).Inv ∧
    view State.phase (run 2 (moving dropped [.line false, .block])) = some .wait1 ∧
    (moving dropped [.tick]).Inv ∧ view State.phase (run 1 (moving dropped [.tick])) = some .idle := by decide

end Sys2Proof.Tests
end

/-! # Scope (00_scope.md): which configurations there are, what a step refuses and what it emits

First the rules about the shared operations that the invariants below cite, then the facts about a step and a run,
then the obligations of this family. -/

namespace Sys2Proof.Machine

/-! ## What the operations leave unchanged, and what they append to TRACE -/

@[simp] theorem State.pollAt_cfg (s : State) (t r n : Tick) (p q : Phase) : (s.pollAt t r n p q).cfg = s.cfg := rfl
@[simp] theorem State.pollAt_past (s : State) (t r n : Tick) (p q : Phase) : (s.pollAt t r n p q).past = s.past := rfl
@[simp] theorem State.pollAt_trace (s : State) (t r n : Tick) (p q : Phase) :
    (s.pollAt t r n p q).trace = s.trace := rfl

@[simp] theorem State.resetSymbol_cfg (s : State) : s.resetSymbol.cfg = s.cfg := s.clearAccumulator.endActivation_cfg
@[simp] theorem State.resetSymbol_past (s : State) : s.resetSymbol.past = s.past :=
  s.clearAccumulator.endActivation_past
@[simp] theorem State.resetSymbol_trace (s : State) : s.resetSymbol.trace = s.trace :=
  s.clearAccumulator.endActivation_trace

@[simp] theorem State.finishByte_cfg (s : State) : s.finishByte.cfg = s.cfg := s.clearAccumulator.endActivation_cfg
@[simp] theorem State.finishByte_past (s : State) : s.finishByte.past = s.past := s.clearAccumulator.endActivation_past
@[simp] theorem State.finishByte_trace (s : State) : s.finishByte.trace = s.trace :=
  s.clearAccumulator.endActivation_trace

@[simp] theorem State.accumulate_cfg (s : State) (b : Bool) : (s.accumulate b).cfg = s.cfg := by
  obtain ⟨-, h⟩ | ⟨-, h⟩ := s.accumulate_cases b <;> simp [h]
@[simp] theorem State.accumulate_past (s : State) (b : Bool) : (s.accumulate b).past = s.past := by
  obtain ⟨-, h⟩ | ⟨-, h⟩ := s.accumulate_cases b <;> simp [h]
@[simp] theorem State.accumulate_trace (s : State) (b : Bool) : (s.accumulate b).trace = s.trace := by
  obtain ⟨-, h⟩ | ⟨-, h⟩ := s.accumulate_cases b <;> simp [h]

@[simp] theorem State.wrapLine_cfg (s : State) : s.wrapLine.cfg = s.cfg := by
  obtain ⟨-, h⟩ | ⟨-, h⟩ := s.wrapLine_cases <;> simp [h]
@[simp] theorem State.wrapLine_past (s : State) : s.wrapLine.past = s.past := by
  obtain ⟨-, h⟩ | ⟨-, h⟩ := s.wrapLine_cases <;> simp [h]

/-- FIN_WRAP emits the cursor command of a full line, or nothing (R75). -/
theorem State.wrapLine_trace_cases (s : State) :
    s.wrapLine.trace = s.trace ∨ ∃ e, s.wrapLine.trace = s.trace ++ [e] := by
  obtain ⟨-, h⟩ | ⟨-, h⟩ := s.wrapLine_cases
  · exact .inr ⟨.setCursor 0 s.nextRow, by simp [h]⟩
  · exact .inl (by simp [h])

@[simp] theorem State.perform_cfg (s : State) (c : Command) : (s.perform c).cfg = s.cfg := by cases c <;> rfl
@[simp] theorem State.perform_past (s : State) (c : Command) : (s.perform c).past = s.past := by cases c <;> rfl

/-- Every command emits exactly one event in its FIN_DISPATCH step (R76, R77, R78). -/
theorem State.perform_trace (s : State) (c : Command) : ∃ e, (s.perform c).trace = s.trace ++ [e] := by
  cases c with
  | clear => exact ⟨.clear, rfl⟩
  | print b => exact ⟨.printChar b, rfl⟩
  | lineBreak => exact ⟨.setCursor 0 s.nextRow, rfl⟩

@[simp] theorem State.homeCursor_cfg (s : State) : s.homeCursor.cfg = s.cfg := rfl
@[simp] theorem State.homeCursor_past (s : State) : s.homeCursor.past = s.past := rfl
@[simp] theorem State.homeCursor_trace (s : State) : s.homeCursor.trace = s.trace ++ [.setCursor 0 0] := rfl

/-! ## What a step keeps, emits and refuses -/

/-- A block step keeps the configuration and the events of before the last reset. -/
theorem step_block_keeps_cfg_past {s t : State} (hm : s.nextMove = .block) (h : step s = .next t) :
    t.cfg = s.cfg ∧ t.past = s.past := by
  obtain ⟨-, rfl⟩ | ⟨-, -, rfl⟩ | ⟨-, -, rfl⟩ | ⟨-, -, rfl⟩ | ⟨-, -, rfl⟩ | ⟨-, -, rfl⟩ | ⟨-, -, rfl⟩ | ⟨-, rfl⟩ |
    ⟨-, rfl⟩ | ⟨-, rfl⟩ | ⟨-, rfl⟩ | ⟨-, rfl⟩ | ⟨-, rfl⟩ := step_block_cases hm rfl h <;> simp

/-- A block step emits nothing, or one event within a finalize (R36, R75–R79). -/
theorem step_block_trace_cases {s t : State} (hm : s.nextMove = .block) (h : step s = .next t) :
    t.trace = s.trace ∨ s.phase.finalizing = true ∧ ∃ e, t.trace = s.trace ++ [e] := by
  obtain ⟨-, rfl⟩ | ⟨-, -, rfl⟩ | ⟨-, -, rfl⟩ | ⟨-, -, rfl⟩ | ⟨-, -, rfl⟩ | ⟨-, -, rfl⟩ | ⟨-, -, rfl⟩ | ⟨-, rfl⟩ |
    ⟨-, rfl⟩ | ⟨hp, rfl⟩ | ⟨hp, rfl⟩ | ⟨hp, rfl⟩ | ⟨-, rfl⟩ := step_block_cases hm rfl h
  iterate 9 exact .inl (by simp)
  · -- FIN_WRAP
    simpa [hp, Phase.finalizing] using s.takeMove.wrapLine_trace_cases
  · -- FIN_DISPATCH
    have he := s.takeMove.perform_trace (decodeCommand s.takeMove.result)
    exact .inr ⟨by rw [hp]; rfl, by simpa using he⟩
  · -- FIN_HOME
    exact .inr ⟨by rw [hp]; rfl, .setCursor 0 0, by simp⟩
  · -- FIN_DONE
    exact .inl (by simp)

/-- Of the other agents' steps only a hardware reset touches TRACE or the events of before the last one. -/
theorem step_other_trace_past {s t : State} (hm : s.nextMove ≠ .block)
    (hr : ∀ a b c, s.nextMove ≠ .hardwareReset a b c) (h : step s = .next t) :
    t.trace = s.trace ∧ t.past = s.past := by
  obtain ⟨-, rfl⟩ | ⟨v, -, rfl⟩ | ⟨-, -, rfl⟩ | ⟨d, -, rfl⟩ | ⟨-, rfl⟩ | ⟨-, rfl⟩ | ⟨-, r, rfl⟩ |
    ⟨a, b, c, ha, -⟩ := step_other_cases hm rfl h
  iterate 7 simp
  exact absurd ha (hr a b c)

/-- A hardware reset is always possible (R97). -/
theorem step_hardwareReset {s : State} {a b : Tick} {c : Bool} (hm : s.nextMove = .hardwareReset a b c) :
    step s = .next (s.takeMove.hardwareReset a b c) := by
  simp only [step, hm, State.select]

/-- No step changes the configuration (R17). -/
theorem step_cfg {s t : State} (h : step s = .next t) : t.cfg = s.cfg := by
  by_cases hm : s.nextMove = .block
  · exact (step_block_keeps_cfg_past hm h).1
  · obtain ⟨-, rfl⟩ | ⟨v, -, rfl⟩ | ⟨-, -, rfl⟩ | ⟨d, -, rfl⟩ | ⟨-, rfl⟩ | ⟨-, rfl⟩ | ⟨-, r, rfl⟩ |
      ⟨a, b, c, -, rfl⟩ := step_other_cases hm rfl h <;> simp

/-- A counter read is refused only where its continuation is: an unready timer is a fault. -/
theorem withTick_refused_iff {s : State} {k : Tick → Host.Outcome State Fault Refusal} {r : Refusal} :
    withTick s k = .refused r ↔ s.tstate = .ready ∧ k s.tcnt = .refused r := by
  by_cases h : s.tstate = .ready <;> simp [withTick, h]

/-- The one row of the table that can be refused, and when (R8, R58). -/
theorem exec_refused_iff {i : Instr} {s : State} {r : Refusal} :
    exec i s = .refused r ↔
      r = .configurationRefused ∧ ∃ u, i = .ttUsToTicks u ∧ 255 < s.cfg.conversion.ticks u := by
  cases i with
  | ttUsToTicks us =>
    rcases Nat.lt_or_ge 255 (s.cfg.conversion.ticks us) with hu | hu
    · simp [hu, eq_comm]
    · simp [hu]
  | ttInit half =>
    cases half with
    | begins => simp only [exec, execTtInit]; split <;> simp
    | completes d => simp
  | ttNow | ttElapsed | ttWait | capture | wait1 | recapture | wait2 => simp [withTick_refused_iff]
  | _ => simp

/-- No step is refused: none performs the conversion (R11, R58). -/
theorem step_ne_refused (s : State) (r : Refusal) : step s ≠ .refused r := by
  intro h
  unfold step at h
  split at h
  · rename_i i hi
    obtain ⟨-, us, rfl, -⟩ := exec_refused_iff.1 h
    exact State.select_ne_conversion _ _ us hi
  · cases h

/-! ## Runs -/

/-- What every step keeps, every run keeps. -/
theorem run_preserves {P : State → Prop} (hstep : ∀ s t, P s → step s = .next t → P t) :
    ∀ (k : Nat) {s t : State}, P s → run k s = .next t → P t := by
  intro k
  induction k with
  | zero => intro s t hs h; cases h; exact hs
  | succ k ih =>
    intro s t hs h
    cases hu : step s with
    | next u => rw [run_succ_of_step hu] at h; exact ih (hstep s u hs hu) h
    | fault r => simp [run, hu] at h
    | refused r => simp [run, hu] at h

/-- No run changes the configuration (R17). -/
theorem run_cfg {k : Nat} {s t : State} (h : run k s = .next t) : t.cfg = s.cfg :=
  run_preserves (P := fun u => u.cfg = s.cfg) (fun _ _ hu hs => (step_cfg hs).trans hu) k rfl h

/-! ## Configurations -/

/-- The parameters of the machine made for a configuration (R7). -/
def paramsOf (c : RawConfig) : Params where
  thr := BitVec.ofNat 8 c.thr
  tickRate := c.tickRate
  conversion := c.conversion
  constants := c.constants
  edgePolicy := c.edgePolicy
  lineInit := c.lineInit
  maxTicksBetweenPolls := c.maxTicksBetweenPolls
  debugPin := c.debugPin

theorem configure_of_wf {c : RawConfig} (h : c.wf = true) (a b : Tick) (y : Bool) :
    configure c a b y = .next (State.resetWith (paramsOf c) a b y) := if_pos h

theorem configure_of_not_wf {c : RawConfig} (h : ¬ c.wf = true) (a b : Tick) (y : Bool) :
    configure c a b y = .refused .configurationRefused := if_neg h

/-- A machine is made exactly for the configurations R8 admits, and it is theirs, right after reset. -/
theorem configure_next_iff {c : RawConfig} {a b : Tick} {y : Bool} {s : State} :
    configure c a b y = .next s ↔ c.wf = true ∧ s = State.resetWith (paramsOf c) a b y := by
  by_cases h : c.wf = true
  · simp [configure_of_wf h, h, eq_comm]
  · simp [configure_of_not_wf h, h]

/-! ## The obligations -/

/-- Settles O43, from what a block step emits, what the other agents leave alone and what a hardware reset does. -/
theorem traceOnlyGrows : Obligations.TraceOnlyGrows := by
  intro s t h
  refine ⟨fun hr => ?_, fun a b c hm => ?_⟩
  · by_cases hm : s.nextMove = .block
    · refine ⟨(step_block_keeps_cfg_past hm h).2, ?_⟩
      obtain ht | ⟨hp, e, ht⟩ := step_block_trace_cases hm h
      · exact ⟨[], by simp [ht]⟩
      · exact ⟨[e], by simp [ht, hm, hp]⟩
    · obtain ⟨ht, hpast⟩ := step_other_trace_past hm hr h
      exact ⟨hpast, [], by simp [ht]⟩
  · rw [step_hardwareReset hm] at h
    cases h
    simp

/-- Settles O49: no move selects the conversion, the one row that is ever refused. -/
theorem onlyRefusalIsTheConversion : Obligations.OnlyRefusalIsTheConversion :=
  ⟨step_ne_refused, fun _ _ _ => exec_refused_iff⟩

/-- Settles O53: `configure` branches on the two bounds of R8 and hands the parameters over as they are. -/
theorem configurationAdmittedExactlyByTheRule : Obligations.ConfigurationAdmittedExactlyByTheRule := by
  intro c a b y
  refine ⟨fun hbad => configure_of_not_wf (fun hwf => ?_) a b y, fun hthr hconst => ?_⟩
  · obtain ⟨hthr, hconst⟩ := RawConfig_wf_iff.1 hwf
    obtain ht | ⟨u, hu, hgt⟩ := hbad
    · omega
    · exact absurd (hconst u hu) (Nat.not_le.2 hgt)
  · have hthr8 : (BitVec.ofNat 8 c.thr).toNat = c.thr := (BitVec.toNat_ofNat _ _).trans (Nat.mod_eq_of_lt (by omega))
    exact ⟨paramsOf c, configure_of_wf (RawConfig_wf_iff.2 ⟨hthr, hconst⟩) a b y, hthr8,
      rfl, rfl, rfl, rfl, rfl, rfl, fun _ => rfl⟩

/-- Settles O7: the configuration is admitted, so its constants fit a Tick, and no run changes it. -/
theorem admittedConstantsConvert : Obligations.AdmittedConstantsConvert := by
  intro c a b y s t k us ms hs ht hus
  obtain ⟨hwf, rfl⟩ := configure_next_iff.1 hs
  have hconv : t.cfg.conversion = c.conversion := by rw [run_cfg ht]; rfl
  have hfits : t.cfg.conversion.ticks us ≤ 255 := by
    rw [hconv]; exact (RawConfig_wf_iff.1 hwf).2 us hus
  refine ⟨_, exec_ttUsToTicks_fits hfits, ?_⟩
  rw [hconv] at hfits ⊢
  exact (BitVec.toNat_ofNat _ _).trans (Nat.mod_eq_of_lt (by omega))

end Sys2Proof.Machine

/-! # The encodings (10_state.md R14, 30_encoding.md R45, R46, R48): decoder and encoder undo each other

First what each decode table answers, then the obligations on code words. -/

namespace Sys2Proof

/-! ## PHASE values -/

/-- A PHASE value is read as a phase exactly where it is that phase's code (R14). -/
theorem Phase.ofCode?_eq_some_iff {b : BitVec 4} {p : Phase} : Phase.ofCode? b = some p ↔ b = p.code := by
  refine ⟨fun h => ?_, fun h => h ▸ p.ofCode?_code⟩
  revert b
  cases p <;> decide

/-- Four bits stand in a byte as they are exactly where the byte is below 16. -/
theorem eq_zeroExtend_iff {b : Byte} {w : BitVec 4} :
    b = w.zeroExtend 8 ↔ b.toNat < 16 ∧ b.truncate 4 = w := by
  have hw := w.isLt
  simp only [← BitVec.toNat_inj, BitVec.truncate_eq_setWidth, BitVec.toNat_setWidth]
  omega

/-- The phase format decodes exactly the codes of the phases that have a step, each to its step (R14). -/
theorem decodePhaseBits_instr_iff {b : Byte} {i : Instr} :
    decodePhaseBits b = .instr i ↔ ∃ p : Phase, p.row = some i ∧ b = p.code.zeroExtend 8 := by
  simp only [eq_zeroExtend_iff, ← Phase.ofCode?_eq_some_iff, decodePhaseBits]
  by_cases hb : 16 ≤ b.toNat
  · simp [hb]
  · rw [if_neg hb]
    cases hp : Phase.ofCode? (b.truncate 4) with
    | none => simp
    | some p => cases hr : p.row <;> simp [hr]; omega

/-- A phase's step is encoded as the phase's code (R14). -/
theorem Phase.row_encode {p : Phase} {i : Instr} (h : p.row = some i) :
    encode i = some ⟨.phase, p.code.zeroExtend 8⟩ := by
  cases p <;> cases h <;> rfl

/-! ## Sample words and command bytes -/

/-- What a sample word decodes to is encoded as that word, but for `11` (R45, R46). -/
theorem decodeSampleBits_encode {b : Byte} {i : Instr} (h : decodeSampleBits b = .instr i) :
    i.wf = true ∧ (encode i = some ⟨.sampleWord, b⟩ ∨ i = .symReset ∧ b = 0b11) := by
  have hb : b.toNat < 4 := by
    by_contra hb
    simp [decodeSampleBits, Nat.not_lt.1 hb] at h
  have hcases : b = 0b00 ∨ b = 0b01 ∨ b = 0b10 ∨ b = 0b11 := by bv_omega
  obtain rfl | rfl | rfl | rfl := hcases <;> cases h
  · exact ⟨rfl, .inl rfl⟩
  · exact ⟨rfl, .inl rfl⟩
  · exact ⟨rfl, .inl rfl⟩
  · exact ⟨rfl, .inr ⟨rfl, rfl⟩⟩

/-- The command a byte selects is encoded as that byte (R48). -/
theorem decodeCommand_encode (b : Byte) : encode (decodeCommand b).row = some ⟨.commandByte, b⟩ := by
  obtain ⟨rfl, h⟩ | ⟨rfl, h⟩ | ⟨-, -, h⟩ := Machine.decodeCommand_cases b <;> rw [h] <;> rfl

/-- A byte that a well-formed CMD_PRINT prints selects that CMD_PRINT (R48, R77). -/
theorem decodeCommand_of_wf {b : Byte} (h : (Instr.cmdPrint b).wf = true) : decodeCommand b = .print b := by
  obtain ⟨rfl, -⟩ | ⟨rfl, -⟩ | ⟨-, -, hp⟩ := Machine.decodeCommand_cases b
  · cases h
  · cases h
  · exact hp

/-! ## Code words -/

theorem encode_eq_none_iff {i : Instr} : encode i = none ↔ i.bits = none := by simp [encode]

/-- A well-formed row's bits, read in the row's format, are that row. -/
theorem decode_format_bits {i : Instr} {b : Byte} (hwf : i.wf = true) (hb : i.bits = some b) :
    decode ⟨i.format, b⟩ = .instr i := by
  cases i
  case cmdPrint => cases hb; exact congrArg (fun k => Decoded.instr k.row) (decodeCommand_of_wf hwf)
  all_goals cases hb
  all_goals rfl

/-- Whatever decodes is well-formed and encodes back, but for the Reset symbol's second word. -/
theorem decode_instr_encode {c : CodeWord} {i : Instr} (h : decode c = .instr i) :
    i.wf = true ∧ (encode i = some c ∨ i = .symReset ∧ c = ⟨.sampleWord, 0b11⟩) := by
  obtain ⟨f, b⟩ := c
  cases f with
  | phase =>
    obtain ⟨p, hr, rfl⟩ := decodePhaseBits_instr_iff.1 h
    exact ⟨(Phase.row_format hr).2, .inl (Phase.row_encode hr)⟩
  | sampleWord => simpa using decodeSampleBits_encode h
  | commandByte =>
    cases h
    exact ⟨decodeCommand_row_wf b, .inl (decodeCommand_encode b)⟩
  | _ => cases h

/-! ## The obligations on code words -/

/-- Settles O34, row by row: a row with bits is what they decode to, and the rows without bits are those of the four
formats that have none, and TT_WAIT. -/
theorem decodeUndoesEncode : Obligations.DecodeUndoesEncode := by
  intro i hwf
  refine ⟨fun c hc => ?_, ?_⟩
  · obtain ⟨b, hb, rfl⟩ := Option.map_eq_some_iff.1 hc
    exact decode_format_bits hwf hb
  · rw [encode_eq_none_iff]
    cases i <;> simp [Instr.bits, Instr.format]

/-- Settles O35, from what each format's decode table answers. -/
theorem encodeUndoesDecode : Obligations.EncodeUndoesDecode := fun _ _ => decode_instr_encode

/-- Settles O33: each word is a literal, so the tables are evaluated at it. -/
theorem decodesSpecWords : Obligations.DecodesSpecWords := by
  unfold Obligations.DecodesSpecWords
  decide

end Sys2Proof

/-! # The state invariant (10_state.md R31): reset meets it, every step and every run keep it

The invariant says three kinds of things: what holds in every phase, what a classifying phase says of the accumulator
and of the poll gap, and what a finalizing phase says of the accumulator and of the cursor. Each operation is shown to
establish the kind of the phase it leads to. -/

namespace Sys2Proof.Machine

/-! ## What the operations leave unchanged, beyond what stands above -/

@[simp] theorem State.pollAt_phase (s : State) (t r n : Tick) (p q : Phase) :
    (s.pollAt t r n p q).phase = if windowOver (elapsedTicks t r) n then q else p := rfl

/-! ## The invariant in the phases of each kind -/

/-- The part of the invariant that names no phase, but for the latch's being 0 in IDLE: the cursor's range, Drop's
latch, and what has been emitted. -/
structure State.Lasting (s : State) : Prop where
  column_le : s.column.toNat ≤ 21
  drop_latches_nothing : s.cfg.edgePolicy = .drop → s.edgePending = false
  trace_emittable : s.trace.all SinkEvent.emittable = true
  past_emittable : s.past.all SinkEvent.emittable = true

/-- The accumulator holds at most seven bits and nothing above them (R31 items 1 and 2). -/
def State.Counting (s : State) : Prop := s.bitCount.toNat ≤ 7 ∧ s.result.toNat < 2 ^ s.bitCount.toNat

theorem State.Inv.lasting {s : State} (h : s.Inv) : s.Lasting := by
  obtain ⟨-, ⟨hcol, -⟩, ⟨hdrop, -⟩, ⟨htrace, hpast, -⟩, -⟩ := h
  exact ⟨hcol, hdrop, htrace, hpast⟩

theorem State.Inv.counting {s : State} (h : s.Inv) (hp : s.phase.finalizing = false) : s.Counting := h.1.2 hp

theorem State.Inv.bitCount_eq {s : State} (h : s.Inv) (hp : s.phase.finalizing = true) : s.bitCount = 8 := h.1.1 hp

/-- FIN_DISPATCH has room for a character (R80 item 1). -/
theorem State.Inv.room {s : State} (h : s.Inv) (hp : s.phase = .finDispatch) : s.column.toNat ≤ 20 := h.2.1.2 hp

/-- No activation runs while the edge source is disabled. -/
theorem State.Inv.edgeEn_of_active {s : State} (h : s.Inv) (hp : s.phase ≠ .idle) : s.edgeEn = true := by
  obtain ⟨-, -, ⟨-, -, hen⟩, -⟩ := h
  simpa using mt hen hp

/-- In IDLE. -/
theorem inv_of_idle {s : State} (hp : s.phase = .idle) (hl : s.Lasting) (hc : s.Counting)
    (hpend : s.edgePending = false) : s.Inv := by
  obtain ⟨hcol, hdrop, htrace, hpast⟩ := hl
  refine ⟨⟨?_, fun _ => hc⟩, ⟨hcol, ?_⟩, ⟨hdrop, fun _ => hpend, fun _ => hp⟩, ⟨htrace, hpast, ?_⟩, fun _ _ => ?_⟩ <;>
    simp [hp, State.polling, Phase.finalizing]

/-- In an activation, before a finalize. -/
theorem inv_of_classifying {s : State} (hp : s.phase.finalizing = false) (hi : s.phase ≠ .idle) (hl : s.Lasting)
    (hen : s.edgeEn = true) (hc : s.Counting) (hpoll : s.PollInv) : s.Inv := by
  obtain ⟨hcol, hdrop, htrace, hpast⟩ := hl
  refine ⟨⟨?_, fun _ => hc⟩, ⟨hcol, ?_⟩, ⟨hdrop, ?_, ?_⟩, ⟨htrace, hpast, ?_⟩, hpoll⟩
  · simp [hp]
  · intro h; simp [h, Phase.finalizing] at hp
  · exact fun h => absurd h hi
  · simp [hen]
  · intro h; simp [h, Phase.finalizing] at hp

/-- In a finalize. -/
theorem inv_of_finalizing {s : State} (hp : s.phase.finalizing = true) (hl : s.Lasting) (hen : s.edgeEn = true)
    (hc : s.bitCount = 8) (hd : s.phase = .finDispatch → s.column.toNat ≤ 20)
    (hh : s.phase = .finHome → s.result = clearByte) : s.Inv := by
  obtain ⟨hcol, hdrop, htrace, hpast⟩ := hl
  refine ⟨⟨fun _ => hc, ?_⟩, ⟨hcol, hd⟩, ⟨hdrop, ?_, ?_⟩, ⟨htrace, hpast, hh⟩, fun _ _ hw => ?_⟩
  · simp [hp]
  · intro h; simp [h, Phase.finalizing] at hp
  · simp [hen]
  · obtain h | h := hw <;> simp [h, Phase.finalizing] at hp

/-! ## The operations of the block -/

/-- The invariant reads neither the schedule nor the count of free moves. -/
theorem State.Inv.takeMove {s : State} (h : s.Inv) : s.takeMove.Inv := by
  unfold State.takeMove
  split <;> exact h

/-- A reference captured (R61, R65): the gap between polls starts at 0. -/
theorem inv_captureAt {s : State} (hl : s.Lasting) (hen : s.edgeEn = true) (hc : s.Counting) (t : Tick) {p : Phase}
    (hp : p.finalizing = false) (hi : p ≠ .idle) : (s.captureAt t p).Inv := by
  obtain ⟨hcol, hdrop, htrace, hpast⟩ := hl
  exact inv_of_classifying hp hi ⟨hcol, hdrop, htrace, hpast⟩ hen hc fun g _ _ => Nat.zero_le g

/-- A poll (R59), which starts the gap anew. -/
theorem inv_pollAt {s : State} (hl : s.Lasting) (hen : s.edgeEn = true) (hc : s.Counting) (t r n : Tick) {p q : Phase}
    (hp : p.finalizing = false ∧ p ≠ .idle) (hq : q.finalizing = false ∧ q ≠ .idle) : (s.pollAt t r n p q).Inv := by
  obtain ⟨hcol, hdrop, htrace, hpast⟩ := hl
  obtain ⟨hclassifying, hactive⟩ :
      (s.pollAt t r n p q).phase.finalizing = false ∧ (s.pollAt t r n p q).phase ≠ .idle := by
    rw [State.pollAt_phase]
    split
    · exact hq
    · exact hp
  exact inv_of_classifying hclassifying hactive ⟨hcol, hdrop, htrace, hpast⟩ hen hc fun g _ _ => Nat.zero_le g

/-- A classifying step that leaves to a phase that does not poll (R63, R67). -/
theorem inv_goto {s : State} (hl : s.Lasting) (hen : s.edgeEn = true) (hc : s.Counting) {p : Phase}
    (hp : p.finalizing = false) (hi : p ≠ .idle) (hw : p ≠ .wait1 ∧ p ≠ .wait2) : (s.goto p).Inv := by
  obtain ⟨hcol, hdrop, htrace, hpast⟩ := hl
  refine inv_of_classifying hp hi ⟨hcol, hdrop, htrace, hpast⟩ hen hc fun _ _ hpoll => ?_
  exact (hpoll.elim hw.1 hw.2).elim

/-- The return, from an accumulator that is no longer full. -/
theorem inv_endActivation {s : State} (hl : s.Lasting) (hen : s.edgeEn = true) (hc : s.Counting) :
    s.endActivation.Inv := by
  have hpend := s.endActivation_edgePending hl.drop_latches_nothing
  have hl' : s.endActivation.Lasting :=
    ⟨by simpa using hl.column_le, fun _ => hpend, by simpa using hl.trace_emittable, by simpa using hl.past_emittable⟩
  have hc' : s.endActivation.Counting := by simpa [State.Counting] using hc
  obtain hp | hp := s.endActivation_phase
  · exact inv_of_idle hp hl' hc' hpend
  · refine inv_of_classifying ?_ ?_ hl' (by simpa using hen) hc' fun _ _ hw => ?_ <;>
      simp_all [Phase.finalizing, State.polling]

/-- The accumulator's clear, with the return (R64, R79). -/
theorem inv_clearAccumulator_endActivation {s : State} (hl : s.Lasting) (hen : s.edgeEn = true) :
    s.clearAccumulator.endActivation.Inv :=
  inv_endActivation ⟨hl.column_le, hl.drop_latches_nothing, hl.trace_emittable, hl.past_emittable⟩ hen
    (by simp [State.Counting])

/-- The bit merged at BIT_COUNT leaves RESULT below the next power of two. -/
theorem State.mergeBit_result_lt {s : State} (h : s.result.toNat < 2 ^ s.bitCount.toNat) (b : Bool) :
    (s.mergeBit b).result.toNat < 2 ^ (s.bitCount.toNat + 1) := by
  have hr : s.result.toNat < 2 ^ (s.bitCount.toNat + 1) := h.trans (Nat.pow_lt_pow_right (by omega) (by omega))
  cases b with
  | false => simpa using hr
  | true =>
    simp only [State.mergeBit_result, if_true, BitVec.toNat_or, BitVec.toNat_shiftLeft]
    refine Nat.or_lt_two_pow hr (lt_of_le_of_lt (Nat.mod_le _ _) ?_)
    simpa [Nat.shiftLeft_eq] using Nat.pow_lt_pow_right (a := 2) (by omega) (Nat.lt_succ_self s.bitCount.toNat)

/-- A counted bit (R70–R72). -/
theorem inv_accumulate {s : State} (hl : s.Lasting) (hen : s.edgeEn = true) (hc : s.Counting) (b : Bool) :
    (s.accumulate b).Inv := by
  obtain ⟨hcount, hresult⟩ := hc
  obtain ⟨hcol, hdrop, htrace, hpast⟩ := hl
  obtain ⟨hlt, h⟩ | ⟨hge, h⟩ := s.accumulate_cases b
  · rw [h]
    refine inv_endActivation ⟨hcol, hdrop, htrace, hpast⟩ hen ?_
    have hn : (BitVec.ofNat 4 (s.bitCount.toNat + 1)).toNat = s.bitCount.toNat + 1 :=
      (BitVec.toNat_ofNat _ _).trans (Nat.mod_eq_of_lt (by omega))
    simp only [State.Counting, hn]
    exact ⟨by omega, s.mergeBit_result_lt hresult b⟩
  · have h7 : s.bitCount.toNat = 7 := by omega
    rw [h]
    refine inv_of_finalizing rfl ⟨hcol, hdrop, htrace, hpast⟩ hen ?_ ?_ ?_ <;> simp [h7]

/-- FIN_WRAP leaves room for a character (R75, R80 item 1). -/
theorem inv_wrapLine {s : State} (hl : s.Lasting) (hen : s.edgeEn = true) (hc : s.bitCount = 8) : s.wrapLine.Inv := by
  obtain ⟨hcol, hdrop, htrace, hpast⟩ := hl
  obtain ⟨-, h⟩ | ⟨hroom, h⟩ := s.wrapLine_cases <;> rw [h]
  · refine inv_of_finalizing rfl ⟨?_, hdrop, ?_, hpast⟩ hen hc ?_ ?_ <;> simp_all [SinkEvent.emittable]
  · exact inv_of_finalizing rfl ⟨hcol, hdrop, htrace, hpast⟩ hen hc (fun _ => hroom) (by simp)

/-- FIN_DISPATCH, with room for a character (R48, R76–R78). -/
theorem inv_perform {s : State} (hl : s.Lasting) (hen : s.edgeEn = true) (hc : s.bitCount = 8)
    (hroom : s.column.toNat ≤ 20) : (s.perform (decodeCommand s.result)).Inv := by
  obtain ⟨hcol, hdrop, htrace, hpast⟩ := hl
  obtain ⟨hr, h⟩ | ⟨hr, h⟩ | ⟨hr1, hr0, h⟩ := decodeCommand_cases s.result <;> rw [h]
  · refine inv_of_finalizing rfl ⟨hcol, hdrop, ?_, hpast⟩ hen hc ?_ ?_ <;> simp_all [SinkEvent.emittable]
  · refine inv_of_finalizing rfl ⟨?_, hdrop, ?_, hpast⟩ hen hc ?_ ?_ <;> simp_all [SinkEvent.emittable]
  · have hb : 2 ≤ s.result.toNat := by
      unfold clearByte at hr1; unfold lineBreakByte at hr0; bv_omega
    have hcol' : (s.column + 1).toNat ≤ 21 := by bv_omega
    refine inv_of_finalizing rfl ⟨hcol', hdrop, ?_, hpast⟩ hen hc ?_ ?_ <;> simp_all [SinkEvent.emittable]

/-- FIN_HOME (R76). -/
theorem inv_homeCursor {s : State} (hl : s.Lasting) (hen : s.edgeEn = true) (hc : s.bitCount = 8) :
    s.homeCursor.Inv := by
  obtain ⟨-, hdrop, htrace, hpast⟩ := hl
  refine inv_of_finalizing rfl ⟨?_, hdrop, ?_, hpast⟩ hen hc ?_ ?_ <;>
    simp_all [SinkEvent.emittable, State.homeCursor]

/-! ## The operations of the other agents -/

/-- A tick counts against the bound between polls only while the bound leaves room (R54, R59). -/
theorem State.Inv.tickOnce {s : State} (h : s.Inv) : s.tickOnce.Inv := by
  unfold State.tickOnce
  split
  · rename_i henabled
    obtain ⟨-, hadmitted⟩ := henabled
    obtain ⟨hacc, hcur, hedge, htrace, -⟩ := h
    exact ⟨hacc, hcur, hedge, htrace, fun g hg => (State.tickAdmitted_of_bound (s := s) hg).1 hadmitted⟩
  · exact h

/-- A line step: the edge starts an activation or is latched, as EDGE_EN, PHASE and EDGE_POLICY say (R60). -/
theorem State.Inv.driveLine {s : State} (h : s.Inv) (v : Bool) : (s.driveLine v).Inv := by
  obtain hd | ⟨-, -, hen, hp, hd⟩ | ⟨-, -, hen, hp, hpolicy, hd⟩ := s.driveLine_cases v <;> rw [hd]
  · exact h
  · have hc : s.Counting := h.counting (by simp [hp, Phase.finalizing])
    have hl := h.lasting
    exact inv_of_classifying rfl (by simp) ⟨hl.column_le, hl.drop_latches_nothing, hl.trace_emittable,
      hl.past_emittable⟩ hen hc (fun _ _ hw => by simp [State.polling] at hw)
  · obtain ⟨hacc, hcur, ⟨-, -, hactive⟩, htrace, hpoll⟩ := h
    refine ⟨hacc, hcur, ⟨?_, fun hi => absurd hi hp, hactive⟩, htrace, hpoll⟩
    simp [hpolicy]

theorem State.Inv.enableEdges {s : State} (h : s.Inv) : s.enableEdges.Inv := by
  obtain ⟨hacc, hcur, ⟨hdrop, hidle, -⟩, htrace, hpoll⟩ := h
  exact ⟨hacc, hcur, ⟨hdrop, hidle, fun hen => by simp at hen⟩, htrace, hpoll⟩

theorem State.Inv.completeInit {s : State} (h : s.Inv) (d : Tick) : (s.completeInit d).Inv := by
  unfold State.completeInit
  split <;> exact h

/-- After reset there is nothing in the accumulator, the cursor, the latch or TRACE (R32). -/
theorem inv_resetWith (c : Params) (a b : Tick) (y : Bool) : (State.resetWith c a b y).Inv :=
  inv_of_idle rfl ⟨by simp [State.resetWith], fun _ => rfl, rfl, rfl⟩ (by simp [State.Counting, State.resetWith]) rfl

/-- What hardware reset keeps in `past` is what stood in `past` and TRACE (R97). -/
theorem State.Inv.hardwareReset {s : State} (h : s.Inv) (a b : Tick) (y : Bool) : (s.hardwareReset a b y).Inv := by
  have hl := h.lasting
  refine inv_of_idle rfl ⟨by simp, fun _ => rfl, rfl, ?_⟩ (by simp [State.Counting]) rfl
  rw [State.hardwareReset_past, List.all_append, hl.past_emittable, hl.trace_emittable]
  rfl

/-! ## Steps and runs -/

/-- A block step keeps the invariant: in IDLE it only takes the move off, and in an activation each phase's operation
leads to a phase whose part of the invariant it establishes. -/
theorem step_block_keeps_inv {s t : State} (hm : s.nextMove = .block) (hs : s.Inv) (h : step s = .next t) : t.Inv := by
  have hcases := step_block_cases hm rfl h
  rw [← s.takeMove_phase] at hcases
  have hu := hs.takeMove
  generalize s.takeMove = u at hcases hu
  have hl := hu.lasting
  have hen : u.phase ≠ .idle → u.edgeEn = true := hu.edgeEn_of_active
  have hcount : u.phase.finalizing = false → u.Counting := hu.counting
  have hfull : u.phase.finalizing = true → u.bitCount = 8 := hu.bitCount_eq
  have hroom : u.phase = .finDispatch → u.column.toNat ≤ 20 := hu.room
  obtain ⟨-, rfl⟩ | ⟨hp, -, rfl⟩ | ⟨hp, -, rfl⟩ | ⟨hp, -, rfl⟩ | ⟨hp, -, rfl⟩ | ⟨hp, -, rfl⟩ | ⟨hp, -, rfl⟩ |
    ⟨hp, rfl⟩ | ⟨hp, rfl⟩ | ⟨hp, rfl⟩ | ⟨hp, rfl⟩ | ⟨hp, rfl⟩ | ⟨hp, rfl⟩ := hcases
  · exact hu
  all_goals
    replace hen := hen (by simp [hp])
    simp only [hp, Phase.finalizing, reduceCtorEq, false_implies, true_implies] at hcount hfull hroom
  · -- CAPTURE
    exact inv_captureAt hl hen hcount _ rfl (by simp)
  · -- WAIT1
    exact inv_pollAt hl hen hcount _ _ _ (by decide) (by decide)
  · -- SAMPLE1, high
    exact inv_clearAccumulator_endActivation hl hen
  · -- SAMPLE1, low
    exact inv_goto hl hen hcount rfl (by simp) (by simp)
  · -- RECAPTURE
    exact inv_captureAt hl hen hcount _ rfl (by simp)
  · -- WAIT2
    exact inv_pollAt hl hen hcount _ _ _ (by decide) (by decide)
  · -- SAMPLE2
    obtain ⟨hcol, hdrop, htrace, hpast⟩ := hl
    exact inv_goto ⟨hcol, hdrop, htrace, hpast⟩ hen hcount rfl (by simp) (by simp)
  · -- ACCUM
    exact inv_accumulate hl hen hcount _
  · -- FIN_WRAP
    exact inv_wrapLine hl hen hfull
  · -- FIN_DISPATCH
    exact inv_perform hl hen hfull hroom
  · -- FIN_HOME
    exact inv_homeCursor hl hen hfull
  · -- FIN_DONE
    exact inv_clearAccumulator_endActivation hl hen

/-- A step of another agent keeps the invariant. -/
theorem step_other_keeps_inv {s t : State} (hm : s.nextMove ≠ .block) (hs : s.Inv) (h : step s = .next t) :
    t.Inv := by
  have hu := hs.takeMove
  obtain ⟨-, rfl⟩ | ⟨v, -, rfl⟩ | ⟨-, -, rfl⟩ | ⟨d, -, rfl⟩ | ⟨-, rfl⟩ | ⟨-, rfl⟩ | ⟨-, r, rfl⟩ |
    ⟨a, b, c, -, rfl⟩ := step_other_cases hm rfl h
  · exact hu.tickOnce
  · exact hu.driveLine v
  · exact hu
  · exact hu.completeInit d
  · exact hu
  · exact hu.enableEdges
  · exact hu
  · exact hu.hardwareReset a b c

/-! ## The obligations on the invariant -/

/-- Settles O50: the operation of every move keeps the invariant. -/
theorem everyStepKeepsInvariant : Obligations.EveryStepKeepsInvariant := by
  intro s t hs h
  by_cases hm : s.nextMove = .block
  · exact step_block_keeps_inv hm hs h
  · exact step_other_keeps_inv hm hs h

/-- Settles O58, by induction over the run; in a quiescent state PHASE = IDLE, which is no finalize. -/
theorem everyRunKeepsInvariant : Obligations.EveryRunKeepsInvariant := by
  intro k s t hs h
  have ht : t.Inv := run_preserves everyStepKeepsInvariant k hs h
  exact ⟨ht, fun ⟨hidle, _⟩ => ht.counting (by rw [hidle]; rfl)⟩

/-- Settles O51: `State.reset` is one of the states a hardware reset can leave. -/
theorem resetMeetsInvariant : Obligations.ResetMeetsInvariant :=
  ⟨inv_resetWith _ _ _ _, inv_resetWith⟩

end Sys2Proof.Machine

/-! # The state under a step (10_state.md R14–R32): which agent writes what, and where PHASE goes

First which registers each operation leaves unchanged, then the obligations on a single step. -/

namespace Sys2Proof.Machine

/-! ## The input ports and ROW -/

/-- What the block only reads: the counter, the line, and what init and boot set (R18, R19, R26, R28). -/
def State.ports (s : State) : Tick × Bool × TimerState × Bool := (s.tcnt, s.line, s.tstate, s.edgeEn)

theorem State.ports_eq_iff {s t : State} :
    t.ports = s.ports ↔ t.tcnt = s.tcnt ∧ t.line = s.line ∧ t.tstate = s.tstate ∧ t.edgeEn = s.edgeEn := by
  simp [State.ports]

@[simp] theorem State.takeMove_ports (s : State) : s.takeMove.ports = s.ports := by simp [State.ports]
@[simp] theorem State.goto_ports (s : State) (p : Phase) : (s.goto p).ports = s.ports := rfl
@[simp] theorem State.captureAt_ports (s : State) (t : Tick) (p : Phase) : (s.captureAt t p).ports = s.ports := rfl
@[simp] theorem State.pollAt_ports (s : State) (t r n : Tick) (p q : Phase) :
    (s.pollAt t r n p q).ports = s.ports := rfl
@[simp] theorem State.endActivation_ports (s : State) : s.endActivation.ports = s.ports := by simp [State.ports]
@[simp] theorem State.resetSymbol_ports (s : State) : s.resetSymbol.ports = s.ports :=
  s.clearAccumulator.endActivation_ports
@[simp] theorem State.finishByte_ports (s : State) : s.finishByte.ports = s.ports :=
  s.clearAccumulator.endActivation_ports
@[simp] theorem State.accumulate_ports (s : State) (b : Bool) : (s.accumulate b).ports = s.ports := by
  obtain ⟨-, h⟩ | ⟨-, h⟩ := s.accumulate_cases b <;> rw [h]
  · exact State.endActivation_ports _
  · rfl
@[simp] theorem State.wrapLine_ports (s : State) : s.wrapLine.ports = s.ports := by
  obtain ⟨-, h⟩ | ⟨-, h⟩ := s.wrapLine_cases <;> rw [h] <;> rfl
@[simp] theorem State.perform_ports (s : State) (c : Command) : (s.perform c).ports = s.ports := by cases c <;> rfl
@[simp] theorem State.homeCursor_ports (s : State) : s.homeCursor.ports = s.ports := rfl

@[simp] theorem State.pollAt_row (s : State) (t r n : Tick) (p q : Phase) : (s.pollAt t r n p q).row = s.row := rfl
@[simp] theorem State.resetSymbol_row (s : State) : s.resetSymbol.row = s.row := s.clearAccumulator.endActivation_row
@[simp] theorem State.finishByte_row (s : State) : s.finishByte.row = s.row := s.clearAccumulator.endActivation_row
@[simp] theorem State.accumulate_row (s : State) (b : Bool) : (s.accumulate b).row = s.row := by
  obtain ⟨-, h⟩ | ⟨-, h⟩ := s.accumulate_cases b <;> simp [h]

/-- A block step leaves the counter, the line, TSTATE and EDGE_EN as they were. -/
theorem step_block_ports {s t : State} (hm : s.nextMove = .block) (h : step s = .next t) : t.ports = s.ports := by
  obtain ⟨-, rfl⟩ | ⟨-, -, rfl⟩ | ⟨-, -, rfl⟩ | ⟨-, -, rfl⟩ | ⟨-, -, rfl⟩ | ⟨-, -, rfl⟩ | ⟨-, -, rfl⟩ | ⟨-, rfl⟩ |
    ⟨-, rfl⟩ | ⟨-, rfl⟩ | ⟨-, rfl⟩ | ⟨-, rfl⟩ | ⟨-, rfl⟩ := step_block_cases hm rfl h
  iterate 7 simp
  · -- SAMPLE2 writes SYM alone
    exact s.takeMove_ports
  iterate 5 simp

/-! ## ROW -/

/-- The cursor goes to the start of the next row or of row 0. -/
def State.RowStart (s t : State) : Prop := t.column = 0 ∧ (t.row.toNat = (s.row.toNat + 1) % 8 ∨ t.row = 0)

theorem State.wrapLine_row (s : State) : s.wrapLine.row = s.row ∨ s.RowStart s.wrapLine := by
  obtain ⟨-, h⟩ | ⟨-, h⟩ := s.wrapLine_cases <;> rw [h]
  · exact .inr ⟨rfl, .inl s.nextRow_toNat⟩
  · exact .inl rfl

theorem State.perform_row (s : State) (c : Command) : (s.perform c).row = s.row ∨ s.RowStart (s.perform c) := by
  cases c with
  | clear => exact .inl rfl
  | print b => exact .inl rfl
  | lineBreak => exact .inr ⟨rfl, .inl s.nextRow_toNat⟩

/-- A block step keeps ROW or moves the cursor to the start of a row (R75, R76, R78). -/
theorem step_block_row {s t : State} (hm : s.nextMove = .block) (h : step s = .next t) :
    t.row = s.row ∨ s.RowStart t := by
  have hcases := step_block_cases hm rfl h
  rw [State.RowStart, ← s.takeMove_row]
  generalize s.takeMove = u at hcases
  obtain ⟨-, rfl⟩ | ⟨-, -, rfl⟩ | ⟨-, -, rfl⟩ | ⟨-, -, rfl⟩ | ⟨-, -, rfl⟩ | ⟨-, -, rfl⟩ | ⟨-, -, rfl⟩ | ⟨-, rfl⟩ |
    ⟨-, rfl⟩ | ⟨-, rfl⟩ | ⟨-, rfl⟩ | ⟨-, rfl⟩ | ⟨-, rfl⟩ := hcases
  iterate 9 exact .inl (by simp)
  · exact u.wrapLine_row
  · exact u.perform_row _
  · exact .inr ⟨rfl, .inr rfl⟩
  · exact .inl (by simp)

/-- A step of another agent keeps ROW, but for a hardware reset, which homes the cursor. -/
theorem step_other_row {s t : State} (hm : s.nextMove ≠ .block) (h : step s = .next t) :
    t.row = s.row ∨ s.RowStart t := by
  obtain ⟨-, rfl⟩ | ⟨v, -, rfl⟩ | ⟨-, -, rfl⟩ | ⟨d, -, rfl⟩ | ⟨-, rfl⟩ | ⟨-, rfl⟩ | ⟨-, r, rfl⟩ |
    ⟨a, b, c, -, rfl⟩ := step_other_cases hm rfl h
  iterate 7 exact .inl (by simp)
  exact .inr ⟨rfl, .inr rfl⟩

/-! ## PHASE -/

theorem State.endActivation_phase_mem (s : State) {ps : List Phase} (hi : .idle ∈ ps) (hc : .capture ∈ ps) :
    s.endActivation.phase ∈ ps := by
  obtain h | h := s.endActivation_phase <;> rw [h]
  · exact hi
  · exact hc

theorem State.pollAt_phase_mem (s : State) (t r n : Tick) (p q : Phase) : (s.pollAt t r n p q).phase ∈ [p, q] := by
  rw [State.pollAt_phase]
  split <;> simp

theorem State.accumulate_phase_mem (s : State) (b : Bool) : (s.accumulate b).phase ∈ Phase.accum.successors := by
  obtain ⟨-, h⟩ | ⟨-, h⟩ := s.accumulate_cases b <;> rw [h]
  · exact State.endActivation_phase_mem _ (by decide) (by decide)
  · simp [Phase.successors]

@[simp] theorem State.wrapLine_phase (s : State) : s.wrapLine.phase = .finDispatch := rfl

theorem State.perform_phase_mem (s : State) (c : Command) : (s.perform c).phase ∈ Phase.finDispatch.successors := by
  cases c <;> simp [Phase.successors]

/-! ## Which row a block step runs -/

/-- A block step runs the row PHASE selects (R14). -/
theorem step_block_of_row {s : State} {i : Instr} (hm : s.nextMove = .block) (hr : s.phase.row = some i) :
    step s = exec i s.takeMove := by
  simp only [step, hm, State.select, State.takeMove_phase, hr]

/-- In IDLE a block step waits (R11, R14). -/
theorem step_block_idle {s : State} (hm : s.nextMove = .block) (hp : s.phase = .idle) : step s = .next s.takeMove := by
  simp only [step, hm, State.select, State.takeMove_phase, hp, Phase.row]

/-- PHASE's code decodes to the row the phase selects. -/
theorem row_of_decode_phase_code {p : Phase} {i : Instr} (h : decode ⟨.phase, p.code.zeroExtend 8⟩ = .instr i) :
    p.row = some i := by
  obtain ⟨q, hq, hcode⟩ := decodePhaseBits_instr_iff.1 h
  have hpq : p.code = q.code := by simpa using congrArg (BitVec.truncate 4) hcode
  rwa [Phase.code_injective hpq]

/-- What a table row's bits decode to is a row with bits. -/
theorem decodeTableWord_some {nbits w : Nat} {i : Instr} (h : decodeTableWord nbits w = some i) :
    i.wf = true ∧ i.bits ≠ none := by
  obtain ⟨c, hc⟩ : ∃ c, decode c = .instr i := by
    unfold decodeTableWord at h
    split at h
    · cases h
    · rename_i c _
      split at h
      · rename_i j hj; cases h; exact ⟨c, hj⟩
      · cases h
  obtain ⟨hwf, henc | ⟨rfl, -⟩⟩ := decode_instr_encode hc
  · exact ⟨hwf, fun hnone => by simp [encode_eq_none_iff.2 hnone] at henc⟩
  · exact ⟨hwf, by simp [Instr.bits]⟩

/-- Where the block moves next, in a phase with a step, the machine performs that step on the state itself. -/
theorem step_blockNext {u : State} {i : Instr} (hr : u.phase.row = some i) : step u.blockNext = exec i u :=
  step_block_of_row rfl hr

/-- Each row with bits runs when it is placed: a phase's row directly, a sample word and a command byte as the branch
that SAMPLE1, ACCUM or FIN_DISPATCH takes (log 9). -/
theorem step_placeInstr {i : Instr} (hwf : i.wf = true) (hbits : i.bits ≠ none) (s : State) :
    step (s.placeInstr i).blockNext = exec i (s.placeInstr i) := by
  cases i
  case ttInit | ttTick | ttNow | ttElapsed | ttUsToTicks | ttWait | edge => exact absurd rfl hbits
  case symReset => exact step_blockNext (i := .sample1) rfl
  case symBit1 => exact step_blockNext (i := .accum) rfl
  case symBit0 => exact step_blockNext (i := .accum) rfl
  case cmdClear => exact step_blockNext (i := .finDispatch) rfl
  case cmdLinebreak => exact step_blockNext (i := .finDispatch) rfl
  case cmdPrint b =>
    refine (step_blockNext (i := .finDispatch) rfl).trans ?_
    simp only [exec_finDispatch, State.placeInstr, decodeCommand_of_wf hwf]
    rfl
  all_goals exact step_blockNext rfl

/-! ## The obligations on a single step -/

/-- Settles O37: the step is the row that the move, or PHASE under a block move, selects. -/
theorem stepRunsDecodedInstruction : Obligations.StepRunsDecodedInstruction := by
  intro s
  refine ⟨fun i hm hd => step_block_of_row hm (row_of_decode_phase_code hd), step_block_idle, ?_, ?_, ?_, ?_, ?_, ?_⟩
  all_goals
    intros
    simp only [step, State.select, *]

/-- Settles O38: what the bits decode to has bits, and is placed where the block reads it. -/
theorem placedRowRunsNext : Obligations.PlacedRowRunsNext := by
  intro s nbits w i h
  obtain ⟨hwf, hbits⟩ := decodeTableWord_some h
  simpa only [State.withFetchWord, h] using step_placeInstr hwf hbits s

/-- Settles O39, from the phase each operation leaves to. -/
theorem blockStepFollowsTransitions : Obligations.BlockStepFollowsTransitions := by
  intro s t hm h
  obtain ⟨hp, rfl⟩ | ⟨hp, -, rfl⟩ | ⟨hp, -, rfl⟩ | ⟨hp, -, rfl⟩ | ⟨hp, -, rfl⟩ | ⟨hp, -, rfl⟩ | ⟨hp, -, rfl⟩ |
    ⟨hp, rfl⟩ | ⟨hp, rfl⟩ | ⟨hp, rfl⟩ | ⟨hp, rfl⟩ | ⟨hp, rfl⟩ | ⟨hp, rfl⟩ := step_block_cases hm rfl h <;>
    rw [hp]
  · -- IDLE
    simp [hp, Phase.successors]
  · -- CAPTURE
    simp [Phase.successors]
  · -- WAIT1
    exact State.pollAt_phase_mem _ _ _ _ _ _
  · -- SAMPLE1, high
    exact State.endActivation_phase_mem _ (by decide) (by decide)
  · -- SAMPLE1, low
    simp [Phase.successors]
  · -- RECAPTURE
    simp [Phase.successors]
  · -- WAIT2
    exact State.pollAt_phase_mem _ _ _ _ _ _
  · -- SAMPLE2
    simp [Phase.successors]
  · -- ACCUM
    exact State.accumulate_phase_mem _ _
  · -- FIN_WRAP
    simp [Phase.successors]
  · -- FIN_DISPATCH
    exact State.perform_phase_mem _ _
  · -- FIN_HOME
    exact List.mem_singleton.2 rfl
  · -- FIN_DONE
    exact State.endActivation_phase_mem _ (by decide) (by decide)

/-- Settles O40: of the agents outside the block only the line driver changes PHASE, by an edge taken in IDLE. -/
theorem environmentKeepsBlockRegisters : Obligations.EnvironmentKeepsBlockRegisters := by
  intro s t h hm hr
  obtain ⟨-, rfl⟩ | ⟨v, hv, rfl⟩ | ⟨-, -, rfl⟩ | ⟨d, -, rfl⟩ | ⟨-, rfl⟩ | ⟨-, rfl⟩ | ⟨-, r, rfl⟩ |
    ⟨a, b, c, ha, -⟩ := step_other_cases hm rfl h
  · simp
  · -- a line step: `driveLine_cases` says when it changes PHASE
    obtain hd | ⟨hl, rfl, hen, hp, hd⟩ | ⟨-, -, -, -, -, hd⟩ := s.takeMove.driveLine_cases v
    · simp [hd]
    · simp_all
    · simp [hd]
  iterate 5 simp
  · exact absurd ha (hr a b c)

/-- Settles O41: the block writes none of the four ports, and each other agent only its own. -/
theorem eachPortHasItsWriter : Obligations.EachPortHasItsWriter := by
  intro s t h
  by_cases hm : s.nextMove = .block
  · obtain ⟨htcnt, hline, htstate, hen⟩ := State.ports_eq_iff.1 (step_block_ports hm h)
    exact ⟨fun hne => absurd htcnt hne, fun hne => absurd hline hne, fun hne => absurd htstate hne,
      fun hne => absurd hen hne⟩
  · obtain ⟨hn, rfl⟩ | ⟨v, hn, rfl⟩ | ⟨hn, -, rfl⟩ | ⟨d, hn, rfl⟩ | ⟨-, rfl⟩ | ⟨hn, rfl⟩ | ⟨-, r, rfl⟩ |
      ⟨a, b, c, hn, rfl⟩ := step_other_cases hm rfl h <;> simp [*]

/-- Settles O42: no operation writes the configuration. -/
theorem configurationNeverChanges : Obligations.ConfigurationNeverChanges := fun _ _ => step_cfg

/-- Settles O46: only FIN_WRAP, the line break, FIN_HOME and hardware reset write ROW. -/
theorem rowChangeZeroesColumn : Obligations.RowChangeZeroesColumn := by
  intro s t h hne
  have hrow : t.row = s.row ∨ s.RowStart t := by
    by_cases hm : s.nextMove = .block
    · exact step_block_row hm h
    · exact step_other_row hm h
  exact hrow.resolve_left hne

/-- Settles O52: the step is the reset, and each register's value after it is read off. -/
theorem resetLeavesTheTableValues : Obligations.ResetLeavesTheTableValues := by
  intro s a b y hm
  exact ⟨_, step_hardwareReset hm, by simp⟩

end Sys2Proof.Machine

/-! # What a step does not depend on (10_state.md R18, R29): the tick origin and the events emitted before

One change of the state serves both statements: `rebase` adds a constant to TCNT and T0 and puts events before TRACE.
Each operation of the block, the tick source and the line driver commutes with it, so their steps do. -/

namespace Sys2Proof.Machine

/-- The same state on a counter `k` ticks ahead, with the events `pre` emitted before its own. -/
def State.rebase (k : Tick) (pre : List SinkEvent) (s : State) : State :=
  { s with tcnt := s.tcnt + k, t0 := s.t0 + k, trace := pre ++ s.trace }

/-- The same state with the events `pre` emitted before its own. -/
def State.prepend (pre : List SinkEvent) (s : State) : State := { s with trace := pre ++ s.trace }

theorem State.rebase_zero (pre : List SinkEvent) : State.rebase 0 pre = State.prepend pre := by
  funext s
  simp [State.rebase, State.prepend]

/-- An outcome with the next state, where there is one, changed by `f`. -/
def mapNext (f : State → State) : Host.Outcome State Fault Refusal → Host.Outcome State Fault Refusal
  | .next t => .next (f t)
  | .fault r => .fault r
  | .refused r => .refused r

section
variable (k : Tick) (pre : List SinkEvent)

/-! ## The shared operations

Each tests registers that `rebase` leaves alone, so its branches can be compared one by one. -/

theorem State.takeMove_rebase (s : State) : (s.rebase k pre).takeMove = s.takeMove.rebase k pre := by
  cases h : s.schedule <;> simp [State.takeMove, State.rebase, h]

theorem State.emit_rebase (s : State) (e : SinkEvent) : (s.rebase k pre).emit e = (s.emit e).rebase k pre := by
  simp [State.emit, State.rebase]

theorem State.moveToRow_rebase (s : State) (r : Row) : (s.rebase k pre).moveToRow r = (s.moveToRow r).rebase k pre :=
  State.emit_rebase k pre { s with row := r, column := 0 } (.setCursor 0 r)

theorem State.endActivation_rebase (s : State) : (s.rebase k pre).endActivation = s.endActivation.rebase k pre := by
  rw [State.endActivation, State.endActivation, apply_ite (State.rebase k pre)]
  rfl

theorem State.takeEdge_rebase (s : State) : (s.rebase k pre).takeEdge = s.takeEdge.rebase k pre := by
  have hcfg : (s.rebase k pre).cfg = s.cfg := rfl
  rw [State.takeEdge, State.takeEdge, apply_ite (State.rebase k pre), apply_ite (State.rebase k pre)]
  refine if_congr Iff.rfl rfl (if_congr Iff.rfl rfl ?_)
  rw [hcfg]
  cases s.cfg.edgePolicy <;> rfl

theorem State.driveLine_rebase (s : State) (v : Bool) :
    (s.rebase k pre).driveLine v = (s.driveLine v).rebase k pre := by
  rw [State.driveLine, State.driveLine, apply_ite (State.rebase k pre)]
  exact if_congr Iff.rfl (State.takeEdge_rebase k pre { s with line := v }) rfl

theorem State.tickOnce_rebase (s : State) : (s.rebase k pre).tickOnce = s.tickOnce.rebase k pre := by
  rw [State.tickOnce, State.tickOnce, apply_ite (State.rebase k pre)]
  refine if_congr Iff.rfl ?_ rfl
  simp [State.rebase, add_right_comm]

/-- A poll sees the difference of two ticks alone (R56, R59). -/
theorem State.pollAt_rebase (s : State) (t r n : Tick) (p q : Phase) :
    (s.rebase k pre).pollAt (t + k) (r + k) n p q = (s.pollAt t r n p q).rebase k pre := by
  simp only [State.pollAt_eq, add_sub_add_right_eq_sub]
  rfl

theorem State.accumulate_rebase (s : State) (b : Bool) :
    (s.rebase k pre).accumulate b = (s.accumulate b).rebase k pre := by
  simp only [State.accumulate, State.countBit, apply_ite (State.rebase k pre), ← State.endActivation_rebase]
  rfl

theorem State.wrapLine_rebase (s : State) : (s.rebase k pre).wrapLine = s.wrapLine.rebase k pre := by
  obtain ⟨hfull, h⟩ | ⟨hroom, h⟩ := s.wrapLine_cases <;> rw [h]
  · rw [State.wrapLine_of_full (s := s.rebase k pre) hfull, State.moveToRow_rebase]
    rfl
  · exact State.wrapLine_of_not_full (s := s.rebase k pre) hroom

theorem State.perform_rebase (s : State) (c : Command) : (s.rebase k pre).perform c = (s.perform c).rebase k pre := by
  cases c with
  | clear => exact congrArg (State.goto · .finHome) (s.emit_rebase k pre .clear)
  | print b =>
    exact congrArg (State.goto · .finDone) (State.emit_rebase k pre { s with column := s.column + 1 } (.printChar b))
  | lineBreak => exact congrArg (State.goto · .finDone) (s.moveToRow_rebase k pre s.nextRow)

theorem State.homeCursor_rebase (s : State) : (s.rebase k pre).homeCursor = s.homeCursor.rebase k pre :=
  congrArg (State.goto · .finDone) (s.moveToRow_rebase k pre 0)

theorem State.resetSymbol_rebase (s : State) : (s.rebase k pre).resetSymbol = s.resetSymbol.rebase k pre :=
  s.clearAccumulator.endActivation_rebase k pre

theorem State.finishByte_rebase (s : State) : (s.rebase k pre).finishByte = s.finishByte.rebase k pre :=
  s.clearAccumulator.endActivation_rebase k pre

theorem State.completeInit_prepend (s : State) (d : Tick) :
    (s.prepend pre).completeInit d = (s.completeInit d).prepend pre := by
  rw [State.completeInit, State.completeInit, apply_ite (State.prepend pre)]
  rfl

/-! ## The rows and the steps -/

/-- A counter read answers the changed outcome where the change keeps TSTATE and the continuation answers it. -/
theorem withTick_mapNext {f : State → State} {s : State} {K K' : Tick → Host.Outcome State Fault Refusal}
    (hready : (f s).tstate = s.tstate) (h : K' (f s).tcnt = mapNext f (K s.tcnt)) :
    withTick (f s) K' = mapNext f (withTick s K) := by
  rw [withTick, withTick, apply_ite (mapNext f), hready, h]
  rfl

/-- The row of a phase, on the rebased state, answers the rebased outcome. -/
theorem exec_row_rebase {p : Phase} {i : Instr} (hr : p.row = some i) (s : State) :
    exec i (s.rebase k pre) = mapNext (State.rebase k pre) (exec i s) := by
  cases p <;> cases hr
  case capture | recapture =>
    simp only [exec_capture, exec_recapture]
    refine withTick_mapNext (f := State.rebase k pre) rfl ?_
    rfl
  case wait1 | wait2 =>
    simp only [exec_wait1, exec_wait2]
    exact withTick_mapNext (f := State.rebase k pre) rfl (congrArg _ (s.pollAt_rebase k pre _ _ _ _ _))
  case sample1 =>
    rw [exec_sample1, exec_sample1, mapNext, apply_ite (State.rebase k pre), ← State.resetSymbol_rebase]
    rfl
  case sample2 => rfl
  case accum => exact congrArg _ (s.accumulate_rebase k pre _)
  case finWrap => exact congrArg _ (s.wrapLine_rebase k pre)
  case finDispatch => exact congrArg _ (s.perform_rebase k pre _)
  case finHome => exact congrArg _ (s.homeCursor_rebase k pre)
  case finDone => exact congrArg _ (s.finishByte_rebase k pre)

/-- Whatever the block, the tick source and the line driver do, they do on the rebased state. -/
theorem step_rebase {s : State} (hm : s.nextMove = .block ∨ s.nextMove = .tick ∨ ∃ v, s.nextMove = .line v) :
    step (s.rebase k pre) = mapNext (State.rebase k pre) (step s) := by
  have hmove : (s.rebase k pre).nextMove = s.nextMove := rfl
  rw [step, step, State.takeMove_rebase, hmove]
  generalize s.takeMove = u
  obtain hn | hn | ⟨v, hn⟩ := hm <;> rw [hn]
  · have hphase : (u.rebase k pre).phase = u.phase := rfl
    simp only [State.select, hphase]
    cases hr : u.phase.row with
    | none => rfl
    | some i => exact exec_row_rebase k pre hr u
  · exact congrArg _ (u.tickOnce_rebase k pre)
  · exact congrArg _ (u.driveLine_rebase k pre v)

/-- Whatever any agent does but for a hardware reset, it does on a longer TRACE: the boot agent and the timer's
callers read no event either. -/
theorem step_prepend {s : State} (hr : ∀ a b c, s.nextMove ≠ .hardwareReset a b c) :
    step (s.prepend pre) = mapNext (State.prepend pre) (step s) := by
  have hmove : (s.prepend pre).nextMove = s.nextMove := rfl
  have hbase := step_rebase 0 pre (s := s)
  have htake := State.takeMove_rebase 0 pre s
  rw [State.rebase_zero] at hbase htake
  cases hn : s.nextMove
  case block | tick | line => exact hbase (by simp [hn])
  case hardwareReset a b c => exact absurd hn (hr a b c)
  all_goals
    rw [step, step, htake, hmove, hn]
    generalize s.takeMove = u
    simp only [State.select]
  case initBegins =>
    simp only [exec, execTtInit, apply_ite (mapNext _)]
    rfl
  case initCompletes d => exact congrArg _ (u.completeInit_prepend pre d)
  case now | elapsed =>
    simp only [exec_ttNow, exec_ttElapsed]
    refine withTick_mapNext (f := State.prepend pre) rfl ?_
    rfl
  case sinkInit => rfl
  case enableEdges => rfl

end

/-! ## The obligations -/

/-- Settles O45: an operation of these agents sees only the difference of two ticks. -/
theorem tickOriginIsIrrelevant : Obligations.TickOriginIsIrrelevant := by
  intro s t k hm h
  exact (step_rebase k [] hm).trans (congrArg _ h)

/-- Settles O44: no operation but hardware reset reads TRACE, and what one emits it appends. -/
theorem traceIsNeverRead : Obligations.TraceIsNeverRead := by
  intro s t pre hr h
  exact (step_prepend pre hr).trans (congrArg _ h)

end Sys2Proof.Machine

/-! # The encodings at the symbol level (30_encoding.md R46–R48, R52): the tables are total, and a byte runs its command

First which word selects each symbol and each command, with the obligations on those tables; then the eight bits of a
byte and its finalize, with the obligation on the byte as a whole. -/

namespace Sys2Proof

/-! ## Which words select which symbol, and which bytes which command -/

/-- The sample bit s1 alone selects the Reset symbol (R46). -/
theorem decodeSample_eq_reset_iff {w : BitVec 2} : decodeSample w = .reset ↔ w.getLsbD 1 = true := by
  unfold decodeSample classify
  cases w.getLsbD 1 <;> simp

/-- With s1 low the symbol is the data bit s2 (R46). -/
theorem decodeSample_eq_bit_iff {w : BitVec 2} {b : Bool} :
    decodeSample w = .bit b ↔ w.getLsbD 1 = false ∧ w.getLsbD 0 = b := by
  unfold decodeSample classify
  cases w.getLsbD 1 <;> simp

/-- A sample word, as the byte that holds it, decodes to its symbol's row. -/
theorem decode_sampleWord (w : BitVec 2) :
    decode ⟨.sampleWord, w.zeroExtend 8⟩ = .instr (decodeSample w).row := by
  have hfits : ¬ 4 ≤ (w.zeroExtend 8).toNat := by
    have hw := w.isLt
    rw [BitVec.toNat_setWidth]
    omega
  have hback : (w.zeroExtend 8).truncate 2 = w := by simp
  simp only [decode, decodeSampleBits, if_neg hfits, hback]

/-- CMD_CLEAR is selected by 0x01 alone (R48). -/
theorem decodeCommand_eq_clear_iff {b : Byte} : decodeCommand b = .clear ↔ b.toNat = 1 := by
  have hb : b = clearByte ↔ b.toNat = 1 := BitVec.toNat_inj.symm
  rw [← hb]
  obtain ⟨rfl, h⟩ | ⟨rfl, h⟩ | ⟨h1, -, h⟩ := Machine.decodeCommand_cases b <;> rw [h]
  · simp
  · simp [Machine.clearByte_ne_lineBreakByte.symm]
  · simp [h1]

/-- CMD_LINEBREAK is selected by 0x00 alone (R48). -/
theorem decodeCommand_eq_lineBreak_iff {b : Byte} : decodeCommand b = .lineBreak ↔ b.toNat = 0 := by
  have hb : b = lineBreakByte ↔ b.toNat = 0 := BitVec.toNat_inj.symm
  rw [← hb]
  obtain ⟨rfl, h⟩ | ⟨rfl, h⟩ | ⟨-, h0, h⟩ := Machine.decodeCommand_cases b <;> rw [h]
  · simp [Machine.clearByte_ne_lineBreakByte]
  · simp
  · simp [h0]

/-- CMD_PRINT is selected by every other byte, which it prints (R48). -/
theorem decodeCommand_eq_print_iff {b x : Byte} : decodeCommand b = .print x ↔ 2 ≤ b.toNat ∧ x = b := by
  obtain ⟨rfl, h⟩ | ⟨rfl, h⟩ | ⟨h1, h0, h⟩ := Machine.decodeCommand_cases b <;> rw [h]
  · simp [clearByte]
  · simp [lineBreakByte]
  · have hb : 2 ≤ b.toNat := by
      unfold clearByte at h1
      unfold lineBreakByte at h0
      bv_omega
    simp [hb, eq_comm]

/-! ## The obligations on the tables -/

/-- Settles O36, from the words that select each symbol and the bytes that select each command. -/
theorem sampleWordsAndBytesAllDecode : Obligations.SampleWordsAndBytesAllDecode :=
  ⟨fun w => ⟨decodeSample w, decode_sampleWord w, decodeSample_eq_reset_iff, fun _ => decodeSample_eq_bit_iff⟩,
    fun b => ⟨decodeCommand b, rfl, decodeCommand_eq_clear_iff, decodeCommand_eq_lineBreak_iff,
      fun _ => decodeCommand_eq_print_iff⟩⟩

end Sys2Proof

namespace Sys2Proof.Machine

/-- Settles O26: FIN_DISPATCH performs the command that RESULT decodes to, and each command leaves to FIN_HOME or
FIN_DONE. -/
theorem finDispatchSelectsCommand : Obligations.FinDispatchSelectsCommand := by
  intro s
  simp only [exec_finDispatch]
  refine ⟨fun h => ?_, fun h => ?_, fun h => ?_, _, rfl, ?_⟩
  · rw [decodeCommand_eq_clear_iff.2 h]
    rfl
  · rw [decodeCommand_eq_lineBreak_iff.2 h]
    rfl
  · rw [decodeCommand_eq_print_iff.2 ⟨h, rfl⟩]
    rfl
  · simpa [Phase.successors] using s.perform_phase_mem (decodeCommand s.result)

/-! ## The bits of a byte -/

@[simp] theorem State.accumulate_column (s : State) (b : Bool) : (s.accumulate b).column = s.column := by
  obtain ⟨-, h⟩ | ⟨-, h⟩ := s.accumulate_cases b <;> simp [h]

/-- BIT_COUNT goes up by one with every bit, and the 8 of a full byte fits it (R21, R72). -/
theorem State.accumulate_bitCount_toNat {s : State} (h : s.bitCount.toNat ≤ 7) (b : Bool) :
    (s.accumulate b).bitCount.toNat = s.bitCount.toNat + 1 := by
  have hn : (BitVec.ofNat 4 (s.bitCount.toNat + 1)).toNat = s.bitCount.toNat + 1 :=
    (BitVec.toNat_ofNat _ _).trans (Nat.mod_eq_of_lt (by omega))
  obtain ⟨-, h⟩ | ⟨-, h⟩ := s.accumulate_cases b <;> rw [h]
  · rwa [State.endActivation_bitCount]
  · exact hn

@[simp] theorem State.accumulate_result (s : State) (b : Bool) : (s.accumulate b).result = (s.mergeBit b).result := by
  obtain ⟨-, h⟩ | ⟨-, h⟩ := s.accumulate_cases b <;> simp [h]

/-- The accumulator holds the low `k` bits of `v`, and no others (R21, R22, R37). -/
structure State.HoldsBits (s : State) (v : Byte) (k : Nat) : Prop where
  bitCount_toNat : s.bitCount.toNat = k
  result_getLsbD : ∀ i, s.result.getLsbD i = (decide (i < k) && v.getLsbD i)

theorem State.holdsBits_zero {s : State} (hc : s.bitCount = 0) (hr : s.result = 0) (v : Byte) : s.HoldsBits v 0 :=
  ⟨by simp [hc], by simp [hr]⟩

/-- The accumulator that holds all eight bits holds the byte. -/
theorem State.HoldsBits.result_eq {s : State} {v : Byte} (h : s.HoldsBits v 8) : s.result = v :=
  BitVec.eq_of_getLsbD_eq fun i hi => by rw [h.result_getLsbD, decide_eq_true hi, Bool.true_and]

/-- The next bit of the byte goes to its own position (R70, R71). -/
theorem State.HoldsBits.accumulate {s : State} {v : Byte} {k : Nat} (h : s.HoldsBits v k) (hk : k ≤ 7) :
    (s.accumulate (v.getLsbD k)).HoldsBits v (k + 1) := by
  obtain ⟨hcount, hbits⟩ := h
  refine ⟨by rw [State.accumulate_bitCount_toNat (by omega), hcount], fun i => ?_⟩
  have hone : (1#8 <<< k).getLsbD i = decide (i = k) := by
    have hk8 : k < 8 := by omega
    exact (BitVec.getLsbD_twoPow (w := 8) k i).trans (by simp [hk8, eq_comm])
  rw [State.accumulate_result, State.mergeBit_result, hcount, apply_ite (BitVec.getLsbD · i), BitVec.getLsbD_or,
    hbits, hone]
  obtain hlt | rfl | hgt := Nat.lt_trichotomy i k
  · simp [hlt, hlt.ne, Nat.lt_succ_of_lt hlt]
  · cases v.getLsbD i <;> simp
  · simp [hgt.ne', Nat.not_lt.2 hgt.le, Nat.not_lt.2 hgt]

/-- The first `n` bits of a byte accumulated, least significant first (R37, R73). -/
def State.accumulateBits (s : State) (v : Byte) (n : Nat) : State :=
  (List.range n).foldl (fun u k => u.accumulate (v.getLsbD k)) s

theorem State.accumulateBits_succ (s : State) (v : Byte) (n : Nat) :
    s.accumulateBits v (n + 1) = (s.accumulateBits v n).accumulate (v.getLsbD n) := by
  simp [State.accumulateBits, List.range_succ]

/-- From a cleared accumulator the first bits of a byte stand in the accumulator (R73). -/
theorem State.accumulateBits_holdsBits {s : State} (hc : s.bitCount = 0) (hr : s.result = 0) (v : Byte) {n : Nat}
    (hn : n ≤ 8) : (s.accumulateBits v n).HoldsBits v n := by
  induction n with
  | zero => exact State.holdsBits_zero hc hr v
  | succ n ih =>
    rw [State.accumulateBits_succ]
    exact (ih (by omega)).accumulate (by omega)

/-- Bits emit nothing and leave the cursor (R36, R70–R72). -/
theorem State.accumulateBits_trace_cursor (s : State) (v : Byte) (n : Nat) :
    (s.accumulateBits v n).trace = s.trace ∧ (s.accumulateBits v n).row = s.row ∧
      (s.accumulateBits v n).column = s.column := by
  induction n with
  | zero => exact ⟨rfl, rfl, rfl⟩
  | succ n ih => simpa [State.accumulateBits_succ] using ih

/-! ## The sample words of a byte -/

/-- A bit that does not complete the byte is accumulated, and that is all. -/
theorem State.symbolLevel_bit_of_lt {s : State} (h : s.bitCount.toNat < 7) (b : Bool) :
    s.symbolLevel (.bit b) = s.accumulate b := by
  refine if_neg fun hp => ?_
  obtain ⟨-, ha⟩ | ⟨hge, -⟩ := s.accumulate_cases b
  · rw [ha] at hp
    obtain hq | hq := State.endActivation_phase _ <;> rw [hq] at hp <;> cases hp
  · omega

/-- The bit that completes the byte is accumulated, and the byte finalized. -/
theorem State.symbolLevel_bit_of_ge {s : State} (h : 7 ≤ s.bitCount.toNat) (b : Bool) :
    s.symbolLevel (.bit b) = (s.accumulate b).finalizeByte := by
  refine if_pos ?_
  obtain ⟨hlt, -⟩ | ⟨-, ha⟩ := s.accumulate_cases b
  · omega
  · rw [ha]

/-- The sample words of a byte's first `n` bits (R52). -/
def bitWords (v : Byte) (n : Nat) : List (BitVec 2) :=
  (List.range n).map fun k => if v.getLsbD k then 0b01 else 0b00

/-- One more sample word delivers one more bit. -/
theorem State.runWords_bitWords_succ (s : State) (v : Byte) (n : Nat) :
    s.runWords (bitWords v (n + 1)) = (s.runWords (bitWords v n)).symbolLevel (.bit (v.getLsbD n)) := by
  have hword : decodeSample (if v.getLsbD n then 0b01 else 0b00) = .bit (v.getLsbD n) := by
    cases v.getLsbD n <;> rfl
  simp only [State.runWords, bitWords, List.range_succ, List.map_append, List.map_cons, List.map_nil,
    List.foldl_append, List.foldl_cons, List.foldl_nil, hword]

/-- Fewer than eight sample words from a cleared accumulator only accumulate their bits. -/
theorem State.runWords_bitWords {s : State} (hc : s.bitCount = 0) (hr : s.result = 0) (v : Byte) {n : Nat}
    (hn : n ≤ 7) : s.runWords (bitWords v n) = s.accumulateBits v n := by
  induction n with
  | zero => rfl
  | succ n ih =>
    have hcount := (State.accumulateBits_holdsBits hc hr v (n := n) (by omega)).bitCount_toNat
    rw [State.runWords_bitWords_succ, ih (by omega), State.symbolLevel_bit_of_lt (by omega),
      State.accumulateBits_succ]

/-- The eight sample words of a byte from a cleared accumulator assemble it and finalize it (R47, R52, R73). -/
theorem State.runWords_byte {s : State} (hc : s.bitCount = 0) (hr : s.result = 0) (v : Byte) :
    s.runWords (SymbolStatement.byte v).words = (s.accumulateBits v 8).finalizeByte := by
  have hcount := (State.accumulateBits_holdsBits hc hr v (n := 7) (by omega)).bitCount_toNat
  have hwords : (SymbolStatement.byte v).words = bitWords v (7 + 1) := rfl
  rw [hwords, State.runWords_bitWords_succ, State.runWords_bitWords hc hr v le_rfl,
    State.symbolLevel_bit_of_ge hcount.ge, ← State.accumulateBits_succ]

/-! ## The finalize of a byte -/

@[simp] theorem State.wrapLine_result (s : State) : s.wrapLine.result = s.result := by
  obtain ⟨-, h⟩ | ⟨-, h⟩ := s.wrapLine_cases <;> rw [h] <;> rfl

@[simp] theorem State.finishByte_bitCount (s : State) : s.finishByte.bitCount = 0 :=
  s.clearAccumulator.endActivation_bitCount
@[simp] theorem State.finishByte_result (s : State) : s.finishByte.result = 0 :=
  s.clearAccumulator.endActivation_result
@[simp] theorem State.finishByte_column (s : State) : s.finishByte.column = s.column :=
  s.clearAccumulator.endActivation_column

@[simp] theorem State.homeCursor_row (s : State) : s.homeCursor.row = 0 := rfl
@[simp] theorem State.homeCursor_column (s : State) : s.homeCursor.column = 0 := rfl

/-- Every finalize ends in FIN_DONE (R79). -/
theorem State.finalizeByte_accumulator (s : State) : s.finalizeByte.bitCount = 0 ∧ s.finalizeByte.result = 0 := by
  unfold State.finalizeByte
  exact ⟨State.finishByte_bitCount _, State.finishByte_result _⟩

/-- The clear command goes through FIN_HOME (R76). -/
theorem State.finalizeByte_of_clear {s : State} (h : decodeCommand s.result = .clear) :
    s.finalizeByte = (s.wrapLine.perform .clear).homeCursor.finishByte := by
  simp only [State.finalizeByte, h]
  rfl

/-- The print command goes straight to FIN_DONE (R77). -/
theorem State.finalizeByte_of_print {s : State} {b : Byte} (h : decodeCommand s.result = .print b) :
    s.finalizeByte = (s.wrapLine.perform (.print b)).finishByte := by
  simp only [State.finalizeByte, h]
  rfl

/-- The line break goes straight to FIN_DONE (R78). -/
theorem State.finalizeByte_of_lineBreak {s : State} (h : decodeCommand s.result = .lineBreak) :
    s.finalizeByte = (s.wrapLine.perform .lineBreak).finishByte := by
  simp only [State.finalizeByte, h]
  rfl

theorem State.nextRow_of_row_eq {s : State} {n : Nat} (h : s.row = BitVec.ofNat 3 n) :
    s.nextRow = BitVec.ofNat 3 (n + 1) := by
  rw [State.nextRow, h, BitVec.ofNat_add]
  rfl

/-- After FIN_WRAP there is room for a character (R75, R80 item 1). -/
theorem State.wrapLine_column_le (s : State) : s.wrapLine.column.toNat ≤ 20 := by
  obtain ⟨-, h⟩ | ⟨hroom, h⟩ := s.wrapLine_cases <;> rw [h]
  · exact Nat.zero_le 20
  · exact hroom

/-- What FIN_WRAP emits and where it leaves the cursor; `w` is 1 when the wrap happens and 0 otherwise (R75, R81). -/
theorem State.wrapLine_effect {s : State} {w : Nat} (hcol : s.column.toNat ≤ 21)
    (hw : w = if s.column.toNat = 21 then 1 else 0) :
    s.wrapLine.trace =
        s.trace ++ (if w = 1 then [.setCursor 0 (BitVec.ofNat 3 (s.row.toNat + 1))] else []) ∧
      s.wrapLine.row = BitVec.ofNat 3 (s.row.toNat + w) ∧
      s.wrapLine.column.toNat = if w = 1 then 0 else s.column.toNat := by
  have hnext : s.nextRow = BitVec.ofNat 3 (s.row.toNat + 1) := State.nextRow_of_row_eq (by simp)
  obtain ⟨hfull, h⟩ | ⟨hroom, h⟩ := s.wrapLine_cases <;> rw [h]
  · obtain rfl : w = 1 := by rw [hw, if_pos (by omega)]
    simp [hnext]
  · obtain rfl : w = 0 := by rw [hw, if_neg (by omega)]
    simp

/-! ## The obligation on a byte -/

/-- Settles O57: the eight words assemble `v`, and its finalize is FIN_WRAP's effect followed by its command's. -/
theorem byteStatementRunsItsCommand : Obligations.ByteStatementRunsItsCommand := by
  intro s v w hc hr hcol hw
  rw [State.runWords_byte hc hr v]
  have hresult := (State.accumulateBits_holdsBits hc hr v le_rfl).result_eq
  obtain ⟨htrace, hrow, hcolumn⟩ := s.accumulateBits_trace_cursor v 8
  rw [← hcolumn] at hcol hw
  obtain ⟨hwtrace, hwrow, hwcol⟩ := State.wrapLine_effect hcol hw
  rw [htrace, hrow] at hwtrace
  rw [hrow] at hwrow
  rw [hcolumn] at hwcol
  generalize s.accumulateBits v 8 = u at *
  obtain ⟨hcount, hzero⟩ := u.finalizeByte_accumulator
  refine ⟨_, rfl, hcount, hzero, fun hv => ?_, fun hv => ?_, fun hv => ?_⟩
  · have hk : decodeCommand u.result = .clear := decodeCommand_eq_clear_iff.2 (by simp [hresult, hv])
    simp [State.finalizeByte_of_clear hk, hwtrace]
  · have hk : decodeCommand u.result = .lineBreak := decodeCommand_eq_lineBreak_iff.2 (by simp [hresult, hv])
    have hnext : u.wrapLine.nextRow = BitVec.ofNat 3 (s.row.toNat + 1 + w) := by
      rw [State.nextRow_of_row_eq hwrow, Nat.add_right_comm]
    simp [State.finalizeByte_of_lineBreak hk, hwtrace, hnext]
  · have hk : decodeCommand u.result = .print v := by rw [hresult]; exact decodeCommand_eq_print_iff.2 ⟨hv, rfl⟩
    have hnext : (u.wrapLine.column + 1).toNat = if w = 1 then 1 else s.column.toNat + 1 := by
      have hroom := u.wrapLine_column_le
      have hone : (1 : Column).toNat = 1 := rfl
      rw [BitVec.toNat_add_of_lt (by omega), hwcol]
      split <;> rfl
    simpa [State.finalizeByte_of_print hk, hwtrace, hwrow] using hnext

end Sys2Proof.Machine

/-! # The tick timer (40_tick_timer.md): each operation, and what a number of ticks or of polls comes to

First the cyclic distance, then the timer's operations, one rule each, then the steps and runs of ticks and polls, then
the obligations of this family. -/

namespace Sys2Proof.Machine

/-! ## The cyclic distance (R56, R57) -/

/-- R56 on the 0..255 values: the ticks from `since` up to `n`, going round at 256. -/
theorem elapsedTicks_toNat (n since : Tick) :
    (elapsedTicks n since).toNat = (n.toNat + (256 - since.toNat)) % 256 := by
  rw [elapsedTicks, BitVec.toNat_sub, Nat.add_comm]

/-- The document's branch form computes that distance. -/
theorem elapsedBranch_eq_mod {n since : Nat} (hn : n < 256) (hs : since < 256) :
    elapsedBranch n since = (n + (256 - since)) % 256 := by
  unfold elapsedBranch maxTick
  split <;> omega

theorem elapsedTicks_self (n : Tick) : elapsedTicks n n = 0 := sub_self n

/-- `k` more ticks add `k` to the distance, modulo 256 (R57). -/
theorem elapsedTicks_add_toNat (n since : Tick) (k : Nat) :
    (elapsedTicks (n + BitVec.ofNat 8 k) since).toNat = ((elapsedTicks n since).toNat + k) % 256 := by
  rw [elapsedTicks, add_sub_right_comm, BitVec.toNat_add, BitVec.toNat_ofNat, Nat.add_mod_mod]
  rfl

/-! ## The operations -/

theorem exec_ttInit_begins_of_initializing {s : State} (h : s.tstate = .initializing) :
    exec (.ttInit .begins) s = .fault .initReentered := if_pos h

theorem exec_ttInit_begins_of_ne {s : State} (h : s.tstate ≠ .initializing) :
    exec (.ttInit .begins) s = .next { s with tstate := .initializing } := if_neg h

theorem State.completeInit_of_initializing {s : State} (h : s.tstate = .initializing) (d : Tick) :
    s.completeInit d = { s with tcnt := d, tstate := .ready } := if_pos h

theorem State.completeInit_of_ne {s : State} (h : s.tstate ≠ .initializing) (d : Tick) : s.completeInit d = s :=
  if_neg h

/-- When one more tick is admitted, whether the configuration has a bound or none (R54, R59). -/
theorem State.tickAdmitted_iff {s : State} :
    s.tickAdmitted = true ↔ ∀ g ∈ s.cfg.maxTicksBetweenPolls, s.polling → s.pollGap < g := by
  cases hb : s.cfg.maxTicksBetweenPolls with
  | none => simp [State.tickAdmitted_of_unbounded hb]
  | some g => simp [State.tickAdmitted_of_bound hb]

theorem State.tickOnce_of_admitted {s : State} (hr : s.tstate = .ready) (ha : s.tickAdmitted = true) :
    s.tickOnce = { s with tcnt := s.tcnt + 1, pollGap := s.pollGap + 1 } := if_pos ⟨hr, ha⟩

theorem State.tickOnce_of_notReady {s : State} (h : s.tstate ≠ .ready) : s.tickOnce = s := if_neg fun hc => h hc.1

theorem State.tickOnce_of_not_admitted {s : State} (h : ¬ s.tickAdmitted = true) : s.tickOnce = s :=
  if_neg fun hc => h hc.2

/-- One poll of a READY timer (R59). -/
theorem exec_ttWait_of_ready {s : State} (h : s.tstate = .ready) (ref n : Tick) (next : Phase) :
    exec (.ttWait ref n next) s =
      .next { s with
        phase := if n.toNat ≤ (elapsedTicks s.tcnt ref).toNat then next else s.phase
        pollGap := 0 } := by
  rw [exec_ttWait, withTick_ready h, State.pollAt_eq]
  rfl

/-- A poll that comes too early stays (R59). -/
theorem exec_ttWait_of_lt {s : State} (h : s.tstate = .ready) {ref n : Tick}
    (hlt : (elapsedTicks s.tcnt ref).toNat < n.toNat) (next : Phase) :
    exec (.ttWait ref n next) s = .next s.polled := by
  rw [exec_ttWait_of_ready h, if_neg (Nat.not_le.2 hlt)]
  rfl

/-- Window 1 polls for THR ticks after T0 (R62). -/
theorem exec_wait1_eq_ttWait {s : State} (h : s.phase = .wait1) :
    exec .wait1 s = exec (.ttWait s.t0 s.cfg.thr .sample1) s := by
  rw [exec_wait1, exec_ttWait, h]

/-- Window 2 polls for THR ticks after T0 (R66). -/
theorem exec_wait2_eq_ttWait {s : State} (h : s.phase = .wait2) :
    exec .wait2 s = exec (.ttWait s.t0 s.cfg.thr .sample2) s := by
  rw [exec_wait2, exec_ttWait, h]

/-! ## Steps and runs -/

theorem run_one (s : State) : run 1 s = step s := by
  simp only [run]
  cases step s <;> rfl

/-- A tick of a READY timer, where nothing bounds the ticks between two polls (R54). -/
theorem step_tick_of_unbounded {s : State} {ms : List Move} (hs : s.schedule = .tick :: ms) (hr : s.tstate = .ready)
    (hb : s.cfg.maxTicksBetweenPolls = none) :
    step s = .next { s with tcnt := s.tcnt + 1, pollGap := s.pollGap + 1, schedule := ms } := by
  simp only [step, State.nextMove_cons hs, State.takeMove_cons hs, State.select, exec_ttTick]
  exact congrArg _ (State.tickOnce_of_admitted hr (State.tickAdmitted_of_unbounded hb))

/-- A caller's query of a READY timer (R56). -/
theorem step_elapsed {s : State} {since : Tick} (hm : s.nextMove = .elapsed since) (hr : s.tstate = .ready) :
    step s = .next { s.takeMove with ttResult := elapsedTicks s.tcnt since } := by
  have hr' : s.takeMove.tstate = .ready := by rw [State.takeMove_tstate, hr]
  simp only [step, hm, State.select, exec_ttElapsed, withTick_ready hr', State.takeMove_tcnt]

/-- `d` scheduled ticks add `d` to TCNT, where nothing bounds the ticks between two polls (R54, R57). -/
theorem run_ticks (d : Nat) {s : State} {ms : List Move} (hr : s.tstate = .ready)
    (hb : s.cfg.maxTicksBetweenPolls = none) (hs : s.schedule = List.replicate d .tick ++ ms) :
    run d s =
      .next { s with tcnt := s.tcnt + BitVec.ofNat 8 d, pollGap := s.pollGap + d, schedule := ms } := by
  induction d generalizing s with
  | zero =>
    obtain rfl : s.schedule = ms := hs
    simp [run]
  | succ d ih =>
    rw [List.replicate_succ, List.cons_append] at hs
    rw [run_succ_of_step (step_tick_of_unbounded hs hr hb)]
    refine Eq.trans (ih hr hb rfl) ?_
    have htcnt : s.tcnt + 1 + BitVec.ofNat 8 d = s.tcnt + BitVec.ofNat 8 (d + 1) := by
      rw [BitVec.ofNat_add, add_assoc, add_comm (1 : Tick)]
      rfl
    have hgap : s.pollGap + 1 + d = s.pollGap + (d + 1) := by omega
    simp only [htcnt, hgap]

/-- A block step in WAIT1 is one poll of window 1 (R62). -/
theorem step_wait1_eq_ttWait {s : State} (hm : s.nextMove = .block) (hp : s.phase = .wait1) :
    step s = exec (.ttWait s.t0 s.cfg.thr .sample1) s.takeMove := by
  rw [step_block_of_row hm (i := .wait1) (by rw [hp]; rfl), exec_wait1_eq_ttWait (by rw [State.takeMove_phase, hp]),
    State.takeMove_t0, State.takeMove_cfg]

/-- A block step in WAIT2 is one poll of window 2 (R66). -/
theorem step_wait2_eq_ttWait {s : State} (hm : s.nextMove = .block) (hp : s.phase = .wait2) :
    step s = exec (.ttWait s.t0 s.cfg.thr .sample2) s.takeMove := by
  rw [step_block_of_row hm (i := .wait2) (by rw [hp]; rfl), exec_wait2_eq_ttWait (by rw [State.takeMove_phase, hp]),
    State.takeMove_t0, State.takeMove_cfg]

/-- The poll of window 1 leaves to SAMPLE1 exactly when THR ticks have elapsed since T0 (R62). -/
theorem step_wait1_of_ready {s : State} (hm : s.nextMove = .block) (hr : s.tstate = .ready) (hp : s.phase = .wait1) :
    step s = .next { s.takeMove with
      phase := if s.cfg.thr.toNat ≤ (elapsedTicks s.tcnt s.t0).toNat then .sample1 else .wait1
      pollGap := 0 } := by
  rw [← State.takeMove_tstate] at hr
  rw [step_wait1_eq_ttWait hm hp, exec_ttWait_of_ready hr]
  simp [hp]

/-- A block step in a window whose time has not come stays there (R59). -/
theorem step_window_of_lt {s : State} (hm : s.nextMove = .block) (hr : s.tstate = .ready) (hp : s.polling)
    (hlt : (elapsedTicks s.tcnt s.t0).toNat < s.cfg.thr.toNat) : step s = .next s.takeMove.polled := by
  rw [← State.takeMove_tstate] at hr
  rw [← State.takeMove_tcnt] at hlt
  obtain hp | hp := hp
  · rw [step_wait1_eq_ttWait hm hp, exec_ttWait_of_lt hr hlt]
  · rw [step_wait2_eq_ttWait hm hp, exec_ttWait_of_lt hr hlt]

/-! ## The obligations -/

/-- Settles O5: the ticks add `d` to TCNT, and the distance from TCNT's old value, 0 before them, is then `d` modulo
256. -/
theorem elapsedCountsTicksModulo256 : Obligations.ElapsedCountsTicksModulo256 := by
  intro s d rest hr hb hs
  rw [run_add (run_ticks d hr hb hs) 1, run_one]
  refine ⟨_, step_elapsed rfl hr, ?_, rfl, rfl⟩
  simp [elapsedTicks_add_toNat, elapsedTicks_self]

/-- Settles O10: the true count stays below 256, so the poll after the gap sees it whole. -/
theorem boundedGapLeavesWindowOnTime : Obligations.BoundedGapLeavesWindowOnTime := by
  intro s g k rest hr hp hb hlt hk hg hs
  have hcount : (elapsedTicks (s.tcnt + BitVec.ofNat 8 k) s.t0).toNat = (s.tcnt - s.t0).toNat + k :=
    (elapsedTicks_add_toNat _ _ k).trans (Nat.mod_eq_of_lt (show (s.tcnt - s.t0).toNat + k < 256 by omega))
  rw [run_add (run_ticks k hr hb hs) 1, run_one]
  refine ⟨_, step_wait1_of_ready rfl hr hp, ?_⟩
  simp only [hcount]
  generalize (s.tcnt - s.t0).toNat = e at hlt
  by_cases hleave : s.cfg.thr.toNat ≤ e + k
  · have hlate : e + k < s.cfg.thr.toNat + g := by omega
    simp [hleave, hlate]
  · simp [hleave]

/-- Settles O11: every poll sees the same distance, so each stays. -/
theorem noTicksNoExit : Obligations.NoTicksNoExit := by
  intro s k rest hr hp hlt hs
  induction k generalizing s with
  | zero => exact ⟨s, rfl, rfl, hs, rfl, rfl⟩
  | succ k ih =>
    rw [List.replicate_succ, List.cons_append] at hs
    have hstep := step_window_of_lt (State.nextMove_cons hs) hr hp hlt
    rw [State.takeMove_cons hs] at hstep
    rw [run_succ_of_step hstep]
    exact ih _ hr hp hlt rfl

/-- Settles O1: a begun init is INITIALIZING, so the completing step takes the draw. -/
theorem ttInitBeginsAndCompletes : Obligations.TtInitBeginsAndCompletes := by
  intro s draw
  refine ⟨exec_ttInit_begins_of_initializing, fun h => ⟨_, exec_ttInit_begins_of_ne h, rfl, ?_⟩, fun h => ?_⟩
  · rw [exec_ttInit_completes, State.completeInit_of_initializing rfl]
  · rw [exec_ttInit_completes, State.completeInit_of_ne h]

/-- Settles O2: a tick is admitted exactly where the bound, if there is one, leaves room. -/
theorem ttTickAddsOneModulo256 : Obligations.TtTickAddsOneModulo256 := by
  intro s
  refine ⟨fun hr hroom => ?_, fun hr => ?_, fun g hg hp hfull => ?_⟩
  · have hnext : s.tcnt + 1 = BitVec.ofNat 8 ((s.tcnt.toNat + 1) % 256) :=
      BitVec.eq_of_toNat_eq (by simp [BitVec.toNat_add])
    rw [exec_ttTick, State.tickOnce_of_admitted hr (State.tickAdmitted_iff.2 hroom), hnext]
  · rw [exec_ttTick, State.tickOnce_of_notReady hr]
  · have hused : ¬ s.tickAdmitted = true := fun ha => Nat.not_lt.2 hfull (State.tickAdmitted_iff.1 ha g hg hp)
    rw [exec_ttTick, State.tickOnce_of_not_admitted hused]

/-- Settles O3: the query is one counter read. -/
theorem ttNowReturnsCounter : Obligations.TtNowReturnsCounter := by
  intro s
  rw [exec_ttNow]
  exact ⟨fun h => withTick_ready h _, fun h => withTick_notReady h _⟩

/-- Settles O4: the result is `elapsedTicks`, of which both arithmetic forms hold. -/
theorem ttElapsedIsCyclicDistance : Obligations.TtElapsedIsCyclicDistance := by
  intro s since
  rw [exec_ttElapsed]
  refine ⟨fun h => ⟨_, withTick_ready h _, elapsedTicks_toNat _ _, ?_⟩, fun h => withTick_notReady h _⟩
  rw [elapsedTicks_toNat, elapsedBranch_eq_mod s.tcnt.isLt since.isLt]

/-- Settles O6: a conversion of at most 255 is the value of its own 8-bit word. -/
theorem ttUsToTicksFitsOrIsRefused : Obligations.TtUsToTicksFitsOrIsRefused := by
  intro s us
  refine ⟨fun hfits => ⟨_, exec_ttUsToTicks_fits hfits, ?_⟩, exec_ttUsToTicks_refused⟩
  rw [BitVec.toNat_ofNat, Nat.mod_eq_of_lt (Nat.lt_succ_of_le hfits)]

/-- Settles O8: the poll's comparison on the arithmetic form of the distance; with `n = 0` it always holds. -/
theorem ttWaitPollsOnce : Obligations.TtWaitPollsOnce := by
  intro s ref n next
  refine ⟨fun h => ?_, fun h hn => ?_, fun h => ?_⟩
  · rw [exec_ttWait_of_ready h, elapsedTicks_toNat]
  · have hzero : n.toNat ≤ (elapsedTicks s.tcnt ref).toNat := by simp [hn]
    rw [exec_ttWait_of_ready h, if_pos hzero]
  · rw [exec_ttWait, withTick_notReady h]

/-- Settles O9: in its own phase each window stays where TT_WAIT stays. -/
theorem windowsAreTtWaits : Obligations.WindowsAreTtWaits := fun _ => ⟨exec_wait1_eq_ttWait, exec_wait2_eq_ttWait⟩

end Sys2Proof.Machine

/-! # The classifier (41_classifier.md): each step of an activation, and an activation from its edge to its return

First one rule for each step of an activation, then what a whole schedule of moves comes to (`Reaches`), then the part of
the state that a symbol reads and writes (`over`), then the obligations of this family. -/

namespace Sys2Proof.Machine

/-! ## The edge and the return (R60, R69) -/

/-- The state with the line at `v`. -/
def State.withLine (s : State) (v : Bool) : State := { s with line := v }

theorem State.driveLine_of_falls {s : State} {v : Bool} (h : s.falls v) :
    s.driveLine v = (s.withLine v).takeEdge := if_pos h

theorem State.takeEdge_of_disabled {s : State} (h : s.edgeEn = false) : s.takeEdge = s := if_pos h

theorem State.takeEdge_of_idle {s : State} (he : s.edgeEn = true) (hp : s.phase = .idle) :
    s.takeEdge = s.goto .capture := by
  simp [State.takeEdge, State.goto, he, hp]

/-- An edge that the block takes during an activation is the policy's to hold or to drop. -/
theorem State.takeEdge_of_active {s : State} (he : s.edgeEn = true) (hp : s.phase ≠ .idle) :
    s.takeEdge = if s.cfg.edgePolicy = .latchOne then { s with edgePending := true } else s := by
  cases hc : s.cfg.edgePolicy <;> simp [State.takeEdge, he, hp, hc]

theorem State.endActivation_of_latched {s : State} (hc : s.cfg.edgePolicy = .latchOne) (hp : s.edgePending = true) :
    s.endActivation = { s with edgePending := false, phase := .capture } := if_pos ⟨hc, hp⟩

theorem State.endActivation_of_drop {s : State} (hc : s.cfg.edgePolicy = .drop) : s.endActivation = s.goto .idle :=
  if_neg fun ⟨hlatch, _⟩ => by simp [hc] at hlatch

/-! ## The windows and the samples (R61–R63, R65–R67) -/

/-- A poll on the arithmetic form of the cyclic distance. -/
theorem State.pollAt_eq_mod (s : State) (t ref n : Tick) (stay next : Phase) :
    s.pollAt t ref n stay next =
      { s with
        phase := if n.toNat ≤ (t.toNat + (256 - ref.toNat)) % 256 then next else stay
        pollGap := 0 } := by
  rw [State.pollAt_eq, ← elapsedTicks_toNat]
  rfl

/-- A poll `n` ticks after its reference leaves, where the window is no longer than `n` and `n` does not alias (R57). -/
theorem State.pollAt_of_elapsed (s : State) (ref : Tick) {n : Nat} {thr : Tick} (hthr : thr.toNat ≤ n) (hn : n ≤ 255)
    (stay next : Phase) : s.pollAt (ref + BitVec.ofNat 8 n) ref thr stay next = (s.goto next).polled := by
  have helapsed : (elapsedTicks (ref + BitVec.ofNat 8 n) ref).toNat = n := by
    have hself : (elapsedTicks ref ref).toNat = 0 := congrArg BitVec.toNat (elapsedTicks_self ref)
    rw [elapsedTicks_add_toNat, hself, zero_add, Nat.mod_eq_of_lt (by omega)]
  rw [State.pollAt, if_pos (show windowOver _ _ from hthr.trans_eq helapsed.symm)]

section
variable {s : State}

theorem exec_capture_of_ready (h : s.tstate = .ready) : exec .capture s = .next (s.captureAt s.tcnt .wait1) := by
  rw [exec_capture, withTick_ready h]

theorem exec_recapture_of_ready (h : s.tstate = .ready) : exec .recapture s = .next (s.captureAt s.tcnt .wait2) := by
  rw [exec_recapture, withTick_ready h]

theorem exec_wait1_of_ready (h : s.tstate = .ready) :
    exec .wait1 s = .next (s.pollAt s.tcnt s.t0 s.cfg.thr .wait1 .sample1) := by
  rw [exec_wait1, withTick_ready h]

theorem exec_wait2_of_ready (h : s.tstate = .ready) :
    exec .wait2 s = .next (s.pollAt s.tcnt s.t0 s.cfg.thr .wait2 .sample2) := by
  rw [exec_wait2, withTick_ready h]

theorem exec_sample1_of_high (h : s.line = true) : exec .sample1 s = .next s.resetSymbol := by
  rw [exec_sample1, if_pos h]

theorem exec_sample1_of_low (h : s.line = false) : exec .sample1 s = .next (s.goto .recapture) := by
  rw [exec_sample1, if_neg (by simp [h])]

end

/-- The two windows: the phase that captures the reference, the one that polls, and the sample's. -/
inductive Window : Phase → Phase → Phase → Prop
  | one : Window .capture .wait1 .sample1
  | two : Window .recapture .wait2 .sample2

/-- A window's first step captures the counter (R61, R65). -/
theorem Window.row_capture {c w p : Phase} (hw : Window c w p) :
    ∃ i, c.row = some i ∧ ∀ s : State, s.tstate = .ready → exec i s = .next (s.captureAt s.tcnt w) := by
  cases hw with
  | one => exact ⟨.capture, rfl, fun _ => exec_capture_of_ready⟩
  | two => exact ⟨.recapture, rfl, fun _ => exec_recapture_of_ready⟩

/-- Its other steps poll for THR ticks since then (R62, R66). -/
theorem Window.row_wait {c w p : Phase} (hw : Window c w p) :
    ∃ i, w.row = some i ∧ ∀ s : State, s.tstate = .ready →
      exec i s = .next (s.pollAt s.tcnt s.t0 s.cfg.thr w p) := by
  cases hw with
  | one => exact ⟨.wait1, rfl, fun _ => exec_wait1_of_ready⟩
  | two => exact ⟨.wait2, rfl, fun _ => exec_wait2_of_ready⟩

/-! ## What a schedule of moves comes to -/

/-- The state with the moves `ms` to come. -/
def State.scheduled (s : State) (ms : List Move) : State := { s with schedule := ms }

/-- The moves `ms` take the machine from `s` to `t`, whatever is scheduled after them. -/
structure State.Reaches (s : State) (ms : List Move) (t : State) : Prop where
  run_eq : ∀ rest, run ms.length (s.scheduled (ms ++ rest)) = .next (t.scheduled rest)

theorem State.Reaches.trans {s t u : State} {ms ns : List Move} (h₁ : s.Reaches ms t) (h₂ : t.Reaches ns u) :
    s.Reaches (ms ++ ns) u where
  run_eq rest := by rw [List.length_append, List.append_assoc, run_add (h₁.run_eq _), h₂.run_eq]

theorem State.reaches_move {s t : State} {m : Move}
    (h : ∀ rest, step (s.scheduled (m :: rest)) = .next (t.scheduled rest)) : s.Reaches [m] t where
  run_eq rest := (run_one _).trans (h rest)

/-- A block move runs the row PHASE selects (R14). -/
theorem State.reaches_block {s t : State} {i : Instr} (hr : s.phase.row = some i)
    (h : ∀ rest, exec i (s.scheduled rest) = .next (t.scheduled rest)) : s.Reaches [.block] t :=
  State.reaches_move fun rest => (step_block_of_row (s := s.scheduled (.block :: rest)) rfl hr).trans (h rest)

/-- In IDLE a block move waits (R11). -/
theorem State.reaches_block_idle {s : State} (hp : s.phase = .idle) : s.Reaches [.block] s :=
  State.reaches_move fun _ => step_block_idle rfl hp

/-- A falling edge starts an activation (R60). -/
theorem State.reaches_line_of_falls {s : State} {v : Bool} (hf : s.falls v) (he : s.edgeEn = true)
    (hp : s.phase = .idle) : s.Reaches [.line v] ((s.withLine v).goto .capture) :=
  State.reaches_move fun rest => congrArg _ <|
    (State.driveLine_of_falls (s := s.scheduled rest) hf).trans (State.takeEdge_of_idle he hp)

/-- Any other line move drives the line only. -/
theorem State.reaches_line_of_not_falls {s : State} {v : Bool} (hf : ¬ s.falls v) :
    s.Reaches [.line v] (s.withLine v) :=
  State.reaches_move fun rest => congrArg _ (State.driveLine_of_not_falls (s := s.scheduled rest) hf)

/-- A line that is low cannot fall. -/
theorem State.reaches_line_of_low {s : State} (hl : s.line = false) (v : Bool) :
    s.Reaches [.line v] (s.withLine v) :=
  State.reaches_line_of_not_falls fun ⟨hhigh, _⟩ => by simp [hl] at hhigh

/-- Driving the line high is no falling edge. -/
theorem State.reaches_line_high (s : State) : s.Reaches [.line true] (s.withLine true) :=
  State.reaches_line_of_not_falls fun ⟨_, hv⟩ => by simp at hv

/-- The state `n` ticks later. -/
def State.ticked (s : State) (n : Nat) : State :=
  { s with tcnt := s.tcnt + BitVec.ofNat 8 n, pollGap := s.pollGap + n }

theorem State.reaches_ticks {s : State} (n : Nat) (hr : s.tstate = .ready)
    (hb : s.cfg.maxTicksBetweenPolls = none) : s.Reaches (List.replicate n .tick) (s.ticked n) where
  run_eq rest := by
    rw [List.length_replicate]
    exact run_ticks n (s := s.scheduled _) hr hb rfl

theorem State.reaches_capture {c w p : Phase} (hw : Window c w p) {s : State} (hp : s.phase = c)
    (hr : s.tstate = .ready) : s.Reaches [.block] (s.captureAt s.tcnt w) := by
  obtain ⟨i, hi, hexec⟩ := hw.row_capture
  exact State.reaches_block (hp ▸ hi) fun rest => hexec (s.scheduled rest) hr

theorem State.reaches_poll {c w p : Phase} (hw : Window c w p) {s : State} (hp : s.phase = w)
    (hr : s.tstate = .ready) : s.Reaches [.block] (s.pollAt s.tcnt s.t0 s.cfg.thr w p) := by
  obtain ⟨i, hi, hexec⟩ := hw.row_wait
  exact State.reaches_block (hp ▸ hi) fun rest => hexec (s.scheduled rest) hr

/-- A window's moves: the capture of the reference, `n` ticks, one poll. -/
def windowMoves (n : Nat) : List Move := [Move.block] ++ List.replicate n Move.tick ++ [Move.block]

/-- The state after a window of `n` ticks, in the phase `p`. -/
def State.windowed (s : State) (n : Nat) (p : Phase) : State :=
  { s with phase := p, t0 := s.tcnt, tcnt := s.tcnt + BitVec.ofNat 8 n, pollGap := 0 }

/-- A window of THR to 255 ticks ends at its sample (R61, R62, R65, R66). -/
theorem State.reaches_window {c w p : Phase} (hw : Window c w p) {s : State} {n : Nat} (hp : s.phase = c)
    (hr : s.tstate = .ready) (hb : s.cfg.maxTicksBetweenPolls = none) (hthr : s.cfg.thr.toNat ≤ n) (hn : n ≤ 255) :
    s.Reaches (windowMoves n) (s.windowed n p) := by
  have hleave : ((s.captureAt s.tcnt w).ticked n).pollAt (s.tcnt + BitVec.ofNat 8 n) s.tcnt s.cfg.thr w p =
      s.windowed n p := State.pollAt_of_elapsed _ s.tcnt hthr hn w p
  have hpoll : ((s.captureAt s.tcnt w).ticked n).Reaches [.block] (s.windowed n p) :=
    hleave ▸ State.reaches_poll hw rfl hr
  exact ((State.reaches_capture hw hp hr).trans (State.reaches_ticks n hr hb)).trans hpoll

/-! ## What a symbol reads and writes -/

/-- The state with the registers that a symbol reads or writes (R108's, PHASE, EDGE_PENDING and the configuration) as in
`x`, and all else as in `u`. -/
def State.over (x u : State) : State :=
  { u with
    cfg := x.cfg
    phase := x.phase
    bitCount := x.bitCount
    result := x.result
    column := x.column
    row := x.row
    edgePending := x.edgePending
    trace := x.trace }

section
variable (x u : State)

theorem State.endActivation_over : (x.over u).endActivation = x.endActivation.over u := by
  rw [State.endActivation, State.endActivation, apply_ite (State.over · u)]
  rfl

theorem State.resetSymbol_over : (x.over u).resetSymbol = x.resetSymbol.over u :=
  State.endActivation_over x.clearAccumulator u

theorem State.finishByte_over : (x.over u).finishByte = x.finishByte.over u :=
  State.endActivation_over x.clearAccumulator u

theorem State.accumulate_over (b : Bool) : (x.over u).accumulate b = (x.accumulate b).over u := by
  simp only [State.accumulate, State.countBit, apply_ite (State.over · u), ← State.endActivation_over]
  rfl

theorem State.wrapLine_over : (x.over u).wrapLine = x.wrapLine.over u := by
  obtain ⟨hfull, h⟩ | ⟨hroom, h⟩ := x.wrapLine_cases <;> rw [h]
  · exact State.wrapLine_of_full (s := x.over u) hfull
  · exact State.wrapLine_of_not_full (s := x.over u) hroom

theorem State.perform_over (c : Command) : (x.over u).perform c = (x.perform c).over u := by cases c <;> rfl

theorem State.homeCursor_over : (x.over u).homeCursor = x.homeCursor.over u := rfl

theorem State.finalizeByte_over : (x.over u).finalizeByte = x.finalizeByte.over u := by
  simp only [State.finalizeByte, State.wrapLine_over, State.perform_over, ← State.finishByte_over,
    apply_ite (State.over · u)]
  rfl

theorem State.symbolLevel_over (y : Symbol) : (x.over u).symbolLevel y = (x.symbolLevel y).over u := by
  cases y with
  | reset => exact x.resetSymbol_over u
  | bit b =>
    simp only [State.symbolLevel, State.accumulate_over, ← State.finalizeByte_over, apply_ite (State.over · u)]
    rfl

/-- A symbol's action overwrites PHASE unread. -/
theorem State.symbolLevel_goto (p : Phase) (y : Symbol) : (x.goto p).symbolLevel y = x.symbolLevel y := by
  cases y <;> rfl

end

/-! ## The end of an activation

Where no edge is latched, every symbol's action returns to IDLE with none latched (R69). -/

theorem State.quiescent_endActivation {s : State} (h : s.edgePending = false) : s.endActivation.Quiescent := by
  rw [State.endActivation_of_not_pending h]
  exact ⟨rfl, h⟩

@[simp] theorem State.wrapLine_edgePending (s : State) : s.wrapLine.edgePending = s.edgePending := by
  obtain ⟨-, h⟩ | ⟨-, h⟩ := s.wrapLine_cases <;> rw [h] <;> rfl

@[simp] theorem State.perform_edgePending (s : State) (c : Command) : (s.perform c).edgePending = s.edgePending := by
  cases c <;> rfl

@[simp] theorem State.homeCursor_edgePending (s : State) : s.homeCursor.edgePending = s.edgePending := rfl

/-- Every finalize ends in the return, and nothing before it latches an edge (R79). -/
theorem State.quiescent_finalizeByte {s : State} (h : s.edgePending = false) : s.finalizeByte.Quiescent := by
  refine State.quiescent_endActivation ?_
  rw [State.clearAccumulator_edgePending, apply_ite State.edgePending]
  simp [h]

/-- A bit ends the activation, or completes the byte and goes on to FIN_WRAP. -/
theorem State.accumulate_end {s : State} (h : s.edgePending = false) (b : Bool) :
    (s.accumulate b).edgePending = false ∧
    ((s.accumulate b).phase = .idle ∧ s.symbolLevel (.bit b) = s.accumulate b ∨
     (s.accumulate b).phase = .finWrap ∧ s.symbolLevel (.bit b) = (s.accumulate b).finalizeByte) := by
  obtain ⟨hlt, ha⟩ | ⟨hge, ha⟩ := s.accumulate_cases b
  · obtain ⟨hidle, hpend⟩ : (s.accumulate b).Quiescent := ha ▸ State.quiescent_endActivation h
    exact ⟨hpend, .inl ⟨hidle, State.symbolLevel_bit_of_lt hlt b⟩⟩
  · exact ⟨ha ▸ h, .inr ⟨ha ▸ rfl, State.symbolLevel_bit_of_ge hge b⟩⟩

theorem State.quiescent_symbolLevel {s : State} (h : s.edgePending = false) (y : Symbol) :
    (s.symbolLevel y).Quiescent := by
  cases y with
  | reset => exact State.quiescent_endActivation h
  | bit b =>
    obtain ⟨hpend, ⟨hidle, he⟩ | ⟨-, he⟩⟩ := State.accumulate_end h b <;> rw [he]
    · exact ⟨hidle, hpend⟩
    · exact State.quiescent_finalizeByte hpend

/-! ## The block steps that act on a symbol -/

/-- A block step whose operation commutes with `over` neither reads nor writes the schedule. -/
theorem State.reaches_block_over {s : State} {i : Instr} {f : State → State} (hr : s.phase.row = some i)
    (hexec : ∀ rest, exec i (s.scheduled rest) = .next (f (s.scheduled rest)))
    (hover : ∀ x u : State, f (x.over u) = (f x).over u) : s.Reaches [.block] (f s) := by
  refine State.reaches_block hr fun rest => (hexec rest).trans (congrArg _ ?_)
  have hself : (f s).over s = f s := (hover s s).symm
  calc f (s.scheduled rest) = (f s).over (s.scheduled rest) := hover s (s.scheduled rest)
    _ = ((f s).over s).scheduled rest := rfl
    _ = (f s).scheduled rest := by rw [hself]

theorem State.reaches_symReset {s : State} (hp : s.phase = .sample1) (hl : s.line = true) :
    s.Reaches [.block] (s.symbolLevel .reset) :=
  State.reaches_block_over (by rw [hp]; rfl) (fun rest => exec_sample1_of_high (s := s.scheduled rest) hl)
    State.resetSymbol_over

theorem State.reaches_accum {s : State} (hp : s.phase = .accum) : s.Reaches [.block] (s.accumulate s.sym) :=
  State.reaches_block_over (f := fun u => u.accumulate s.sym) (by rw [hp]; rfl) (fun _ => rfl)
    fun x u => x.accumulate_over u s.sym

theorem State.reaches_finWrap {s : State} (hp : s.phase = .finWrap) : s.Reaches [.block] s.wrapLine :=
  State.reaches_block_over (by rw [hp]; rfl) (fun _ => rfl) State.wrapLine_over

theorem State.reaches_finDispatch {s : State} (hp : s.phase = .finDispatch) :
    s.Reaches [.block] (s.perform (decodeCommand s.result)) :=
  State.reaches_block_over (f := fun u => u.perform (decodeCommand s.result)) (by rw [hp]; rfl) (fun _ => rfl)
    fun x u => x.perform_over u _

theorem State.reaches_finHome {s : State} (hp : s.phase = .finHome) : s.Reaches [.block] s.homeCursor :=
  State.reaches_block_over (by rw [hp]; rfl) (fun _ => rfl) State.homeCursor_over

theorem State.reaches_finDone {s : State} (hp : s.phase = .finDone) : s.Reaches [.block] s.finishByte :=
  State.reaches_block_over (by rw [hp]; rfl) (fun _ => rfl) State.finishByte_over

/-- Four block moves run a finalize: through FIN_HOME after the clear command, and with a wait in IDLE after the two
others (R75–R79). -/
theorem State.reaches_finalizeByte {s : State} (hp : s.phase = .finWrap) (hpend : s.edgePending = false) :
    s.Reaches (List.replicate 4 .block) s.finalizeByte := by
  have hdispatch : s.Reaches [.block, .block] (s.wrapLine.perform (decodeCommand s.result)) := by
    simpa using (State.reaches_finWrap hp).trans (State.reaches_finDispatch s.wrapLine_phase)
  unfold State.finalizeByte
  obtain hd | hd : (s.wrapLine.perform (decodeCommand s.result)).phase = .finHome ∨
      (s.wrapLine.perform (decodeCommand s.result)).phase = .finDone := by
    simpa [Phase.successors] using s.wrapLine.perform_phase_mem (decodeCommand s.result)
  · simp only [hd, if_true]
    exact (hdispatch.trans (State.reaches_finHome hd)).trans (State.reaches_finDone rfl)
  · simp only [hd, reduceCtorEq, if_false]
    obtain ⟨hidle, -⟩ := State.quiescent_endActivation
      (s := (s.wrapLine.perform (decodeCommand s.result)).clearAccumulator) (by simp [hpend])
    exact (hdispatch.trans (State.reaches_finDone hd)).trans (State.reaches_block_idle hidle)

/-- ACCUM and four more block moves act on the symbol SYM holds, and wait where it completes no byte. -/
theorem State.reaches_symBit {s : State} (hp : s.phase = .accum) (hpend : s.edgePending = false) :
    s.Reaches ([Move.block] ++ List.replicate 4 Move.block) (s.symbolLevel (.bit s.sym)) := by
  refine (State.reaches_accum hp).trans ?_
  obtain ⟨hnone, ⟨hidle, he⟩ | ⟨hwrap, he⟩⟩ := State.accumulate_end hpend s.sym <;> rw [he]
  · have hwait := State.reaches_block_idle hidle
    exact ((hwait.trans hwait).trans hwait).trans hwait
  · exact State.reaches_finalizeByte hwrap hnone

/-! ## An activation -/

/-- The moves of an activation up to the step SAMPLE1, at which the line is `v`. -/
def sample1Moves (n : Nat) (v : Bool) : List Move := [Move.line false] ++ windowMoves n ++ [Move.line v]

/-- The moves from SAMPLE1 on a low line up to the step ACCUM. -/
def sample2Moves (n : Nat) (v : Bool) : List Move := [Move.block] ++ windowMoves n ++ [Move.line v] ++ [Move.block]

theorem deliver_of_high (n1 n2 : Nat) (s2 : Bool) :
    deliver n1 n2 true s2 = sample1Moves n1 true ++ ([Move.block] ++ [Move.line true]) := by
  simp [deliver, sample1Moves, windowMoves]

theorem deliver_of_low (n1 n2 : Nat) (s2 : Bool) :
    deliver n1 n2 false s2 =
      sample1Moves n1 false ++
        (sample2Moves n2 s2 ++ ([Move.block] ++ List.replicate 4 Move.block ++ [Move.line true])) := by
  simp [deliver, sample1Moves, sample2Moves, windowMoves]

/-- SAMPLE1 after a window of `n` ticks, the line at `v`. -/
def State.atSample1 (s : State) (n : Nat) (v : Bool) : State := (s.windowed n .sample1).withLine v

/-- ACCUM after a window of `n` ticks and the sample `v`. -/
def State.atAccum (s : State) (n : Nat) (v : Bool) : State := { (s.windowed n .accum).withLine v with sym := v }

/-- From an armed machine with the line high: the edge, window 1, the line at the first sample (R60–R62). -/
theorem State.reaches_sample1 {s : State} {n : Nat} (v : Bool) (ha : s.Armed) (hl : s.line = true)
    (hb : s.cfg.maxTicksBetweenPolls = none) (hthr : s.cfg.thr.toNat ≤ n) (hn : n ≤ 255) :
    s.Reaches (sample1Moves n v) (s.atSample1 n v) := by
  obtain ⟨⟨hidle, -⟩, hen, hr⟩ := ha
  have hedge := State.reaches_line_of_falls (v := false) ⟨hl, rfl⟩ hen hidle
  have hwindow := State.reaches_window .one (s := (s.withLine false).goto .capture) rfl hr hb hthr hn
  exact (hedge.trans hwindow).trans (State.reaches_line_of_low rfl v)

/-- From SAMPLE1 on a low line: window 2, the line at the second sample, which SYM takes (R63, R65–R67). -/
theorem State.reaches_sample2 {s : State} {n : Nat} (v : Bool) (hp : s.phase = .sample1) (hl : s.line = false)
    (hr : s.tstate = .ready) (hb : s.cfg.maxTicksBetweenPolls = none) (hthr : s.cfg.thr.toNat ≤ n) (hn : n ≤ 255) :
    s.Reaches (sample2Moves n v) (s.atAccum n v) := by
  have hlow : s.Reaches [.block] (s.goto .recapture) :=
    State.reaches_block (by rw [hp]; rfl) fun rest => exec_sample1_of_low (s := s.scheduled rest) hl
  have hwindow := State.reaches_window .two (s := s.goto .recapture) rfl hr hb hthr hn
  have hline := State.reaches_line_of_low (s := (s.goto .recapture).windowed n .sample2) hl v
  exact ((hlow.trans hwindow).trans hline).trans (State.reaches_block rfl fun _ => rfl)

/-- The last moves of an activation, from a state `x` in which a symbol reads what it reads in `s`: the symbol's action,
and the line released. -/
theorem State.reaches_release {s x : State} {p : Phase} {y : Symbol} {ms : List Move} (hx : (s.goto p).over x = x)
    (h : x.Reaches ms (x.symbolLevel y)) :
    x.Reaches (ms ++ [Move.line true]) ((s.symbolLevel y).over (x.withLine true)) := by
  have hsymbol : x.symbolLevel y = (s.symbolLevel y).over x := by
    conv_lhs => rw [← hx, State.symbolLevel_over, State.symbolLevel_goto]
  rw [hsymbol] at h
  exact h.trans (State.reaches_line_high _)

/-- The schedule of one activation performs its symbol on what a symbol reads and writes, and leaves all else as in an
armed machine with the line high. -/
theorem State.reaches_deliver {s : State} {n1 n2 : Nat} (s1 s2 : Bool) (ha : s.Armed) (hl : s.line = true)
    (hb : s.cfg.maxTicksBetweenPolls = none) (hthr1 : s.cfg.thr.toNat ≤ n1) (hn1 : n1 ≤ 255)
    (hthr2 : s.cfg.thr.toNat ≤ n2) (hn2 : n2 ≤ 255) :
    ∃ u : State, u.edgeEn = true ∧ u.tstate = .ready ∧ u.line = true ∧
      s.Reaches (deliver n1 n2 s1 s2) ((s.symbolLevel (classify s1 s2)).over u) := by
  have hsample1 := State.reaches_sample1 s1 ha hl hb hthr1 hn1
  obtain ⟨⟨-, hpend⟩, hen, hr⟩ := ha
  cases s1 with
  | true =>
    have hreset := State.reaches_symReset (s := s.atSample1 n1 true) rfl rfl
    have hend := hsample1.trans (State.reaches_release (s := s) (p := .sample1) rfl hreset)
    rw [deliver_of_high]
    exact ⟨(s.atSample1 n1 true).withLine true, hen, hr, rfl, hend⟩
  | false =>
    have hsample2 := State.reaches_sample2 (s := s.atSample1 n1 false) s2 rfl rfl hr hb hthr2 hn2
    have hbit := State.reaches_symBit (s := (s.atSample1 n1 false).atAccum n2 s2) rfl hpend
    have hend := hsample1.trans (hsample2.trans (State.reaches_release (s := s) (p := .accum) rfl hbit))
    rw [deliver_of_low]
    exact ⟨((s.atSample1 n1 false).atAccum n2 s2).withLine true, hen, hr, rfl, hend⟩

/-! ## The obligations -/

/-- Settles O56: the activation's schedule reaches what the symbol's action comes to, in IDLE with no edge latched. -/
theorem activationRefinesSymbolLevel : Obligations.ActivationRefinesSymbolLevel := by
  intro s n1 n2 s1 s2 rest ha _ hl hb hthr1 hn1 hthr2 hn2 hs
  obtain ⟨u, hen, hr, hhigh, hreach⟩ := State.reaches_deliver s1 s2 ha hl hb hthr1 hn1 hthr2 hn2
  obtain ⟨⟨-, hpend⟩, -⟩ := ha
  have hrun := hreach.run_eq rest
  have hstart : s.scheduled (deliver n1 n2 s1 s2 ++ rest) = s := by rw [← hs]; rfl
  rw [hstart] at hrun
  exact ⟨_, hrun, rfl, ⟨State.quiescent_symbolLevel hpend _, hen, hr⟩, hhigh, run_cfg hrun, rfl⟩

/-- Settles O12: a falling edge that the block takes starts an activation from IDLE, and else is the policy's. -/
theorem lineStepDeliversEdge : Obligations.LineStepDeliversEdge := by
  intro s v
  rw [exec_edge]
  by_cases hf : s.falls v
  · obtain ⟨hl, hv⟩ := hf
    rw [State.driveLine_of_falls ⟨hl, hv⟩]
    obtain he | he := Bool.eq_false_or_eq_true s.edgeEn
    · rw [if_pos ⟨hl, hv, he⟩]
      by_cases hp : s.phase = .idle
      · rw [State.takeEdge_of_idle (s := s.withLine v) he hp, if_pos hp]
        rfl
      · rw [State.takeEdge_of_active (s := s.withLine v) he hp, if_neg hp]
        rfl
    · rw [State.takeEdge_of_disabled (s := s.withLine v) he, if_neg (by simp [he])]
      rfl
  · rw [State.driveLine_of_not_falls hf, if_neg fun ⟨hl, hv, _⟩ => hf ⟨hl, hv⟩]

/-- Settles O13: the step is one counter read. -/
theorem captureStartsWindowOne : Obligations.CaptureStartsWindowOne := fun _ =>
  ⟨fun h => ⟨0, exec_capture_of_ready h⟩, fun h => by rw [exec_capture, withTick_notReady h]⟩

/-- Settles O14: the step is one counter read. -/
theorem recaptureStartsWindowTwo : Obligations.RecaptureStartsWindowTwo := fun _ =>
  ⟨fun h => ⟨0, exec_recapture_of_ready h⟩, fun h => by rw [exec_recapture, withTick_notReady h]⟩

/-- Settles O15: the step is one poll. -/
theorem waitOnePollsWindow : Obligations.WaitOnePollsWindow := fun _ =>
  ⟨fun h => ⟨0, by rw [exec_wait1_of_ready h, State.pollAt_eq_mod]⟩, fun h => by rw [exec_wait1, withTick_notReady h]⟩

/-- Settles O16: the step is one poll. -/
theorem waitTwoPollsWindow : Obligations.WaitTwoPollsWindow := fun _ =>
  ⟨fun h => ⟨0, by rw [exec_wait2_of_ready h, State.pollAt_eq_mod]⟩, fun h => by rw [exec_wait2, withTick_notReady h]⟩

/-- Settles O17: an edge is latched, the policy is Drop, or none is pending. -/
theorem returnArmsOrTakesLatchedEdge : Obligations.ReturnArmsOrTakesLatchedEdge := fun _ =>
  ⟨State.endActivation_of_latched, fun h => h.elim State.endActivation_of_drop State.endActivation_of_not_pending⟩

/-- Settles O18: the Reset symbol's action is SYM_RESET's, on a high line. -/
theorem sampleOneClassifiesReset : Obligations.SampleOneClassifiesReset := fun s =>
  ⟨exec_symReset s, exec_sample1_of_high, exec_sample1_of_low⟩

/-- Settles O19: the step's own equation. -/
theorem sampleTwoLatchesSymbol : Obligations.SampleTwoLatchesSymbol := exec_sample2

end Sys2Proof.Machine

/-! # The accumulator (42_accumulator.md): what a bit does to RESULT and BIT_COUNT, and what clears them

First what the merge puts into RESULT and what counting a bit comes to, then which steps write the accumulator, then
the obligations. -/

namespace Sys2Proof.Machine

/-! ## The merge and the count of a bit -/

/-- A merged 1 sets bit BIT_COUNT of RESULT and keeps the others; a position above 7 is no bit of RESULT (R70). -/
theorem State.mergeBit_true_getLsbD (s : State) {j : Nat} (hj : j < 8) :
    (s.mergeBit true).result.getLsbD j = (s.result.getLsbD j || decide (j = s.bitCount.toNat)) := by
  have hone : (1#8 <<< s.bitCount.toNat).getLsbD j = decide (j = s.bitCount.toNat) := by
    rw [← BitVec.twoPow_eq, BitVec.getLsbD_twoPow]
    obtain h | h := eq_or_ne j s.bitCount.toNat
    · simp [← h, hj]
    · simp [h, h.symm]
  rw [State.mergeBit_result, if_pos rfl, BitVec.getLsbD_or, hone]

/-- Where nothing stands in RESULT at or above BIT_COUNT, a merged 1 adds the power of two of its position: the merge
is then a sum, for the two words share no bit (R31 item 2, R70). -/
theorem State.Counting.mergeBit_true_toNat {s : State} (h : s.Counting) :
    (s.mergeBit true).result.toNat = s.result.toNat + 2 ^ s.bitCount.toNat := by
  obtain ⟨hcount, hresult⟩ := h
  have hfits : 2 ^ s.bitCount.toNat < 2 ^ 8 := Nat.pow_lt_pow_right (by omega) (by omega)
  have hone : (1#8 <<< s.bitCount.toNat).toNat = 2 ^ s.bitCount.toNat := by
    rw [← BitVec.twoPow_eq, BitVec.toNat_twoPow, Nat.mod_eq_of_lt hfits]
  have hsum : 2 ^ s.bitCount.toNat + s.result.toNat = 2 ^ s.bitCount.toNat ||| s.result.toNat := by
    simpa using Nat.two_pow_add_eq_or_of_lt hresult 1
  rw [State.mergeBit_result, if_pos rfl, BitVec.toNat_or, hone, Nat.or_comm, ← hsum, Nat.add_comm]

/-- A bit that does not complete the byte ends the activation (R72). -/
theorem State.accumulate_of_lt {s : State} (h : s.bitCount.toNat + 1 < 8) (b : Bool) :
    s.accumulate b =
      { s with result := (s.mergeBit b).result, bitCount := BitVec.ofNat 4 (s.bitCount.toNat + 1) }.endActivation :=
  State.countBit_of_lt (s := s.mergeBit b) (Nat.lt_of_succ_lt_succ h)

/-- The bit that completes the byte goes on to FIN_WRAP (R72). -/
theorem State.accumulate_of_ge {s : State} (h : 8 ≤ s.bitCount.toNat + 1) (b : Bool) :
    s.accumulate b =
      { s with
        result := (s.mergeBit b).result, bitCount := BitVec.ofNat 4 (s.bitCount.toNat + 1), phase := .finWrap } :=
  State.countBit_of_ge (s := s.mergeBit b) (Nat.le_of_succ_le_succ h)

@[simp] theorem State.accumulate_bitCount (s : State) (b : Bool) :
    (s.accumulate b).bitCount = BitVec.ofNat 4 (s.bitCount.toNat + 1) := by
  obtain ⟨-, h⟩ | ⟨-, h⟩ := s.accumulate_cases b <;> simp [h]

/-- The eighth bit of a byte goes on to FIN_WRAP (R72, R73). -/
theorem State.accumulateBits_eight_phase {s : State} (hc : s.bitCount = 0) (hr : s.result = 0) (v : Byte) :
    (s.accumulateBits v 8).phase = .finWrap := by
  have hcount := (State.accumulateBits_holdsBits hc hr v (n := 7) (by omega)).bitCount_toNat
  rw [State.accumulateBits_succ, State.accumulate_of_ge (by omega)]

/-! ## Which steps write the accumulator -/

/-- The accumulator: the count and the bits it counts (R21, R22). -/
def State.accumulator (s : State) : BitCount × Byte := (s.bitCount, s.result)

theorem State.accumulator_eq_zero_iff {s : State} : s.accumulator = (0, 0) ↔ s.bitCount = 0 ∧ s.result = 0 :=
  Prod.mk_inj

@[simp] theorem State.takeMove_accumulator (s : State) : s.takeMove.accumulator = s.accumulator := by
  simp [State.accumulator]
@[simp] theorem State.goto_accumulator (s : State) (p : Phase) : (s.goto p).accumulator = s.accumulator := rfl
@[simp] theorem State.captureAt_accumulator (s : State) (t : Tick) (p : Phase) :
    (s.captureAt t p).accumulator = s.accumulator := rfl
@[simp] theorem State.pollAt_accumulator (s : State) (t r n : Tick) (p q : Phase) :
    (s.pollAt t r n p q).accumulator = s.accumulator := rfl
@[simp] theorem State.wrapLine_accumulator (s : State) : s.wrapLine.accumulator = s.accumulator := by
  obtain ⟨-, h⟩ | ⟨-, h⟩ := s.wrapLine_cases <;> rw [h] <;> rfl
@[simp] theorem State.perform_accumulator (s : State) (c : Command) : (s.perform c).accumulator = s.accumulator := by
  cases c <;> rfl
@[simp] theorem State.homeCursor_accumulator (s : State) : s.homeCursor.accumulator = s.accumulator := rfl

/-- The block writes the accumulator in ACCUM, on a high line in SAMPLE1, and in FIN_DONE. -/
theorem step_block_accumulator {s t : State} (hm : s.nextMove = .block) (h : step s = .next t) :
    t.accumulator = s.accumulator ∨ (s.phase = .accum ∧ ∃ b, t = s.takeMove.accumulate b) ∨
      (s.phase = .sample1 ∧ s.line = true) ∨ s.phase = .finDone := by
  obtain ⟨-, rfl⟩ | ⟨-, -, rfl⟩ | ⟨-, -, rfl⟩ | ⟨hp, hl, -⟩ | ⟨-, -, rfl⟩ | ⟨-, -, rfl⟩ | ⟨-, -, rfl⟩ | ⟨-, rfl⟩ |
    ⟨hp, rfl⟩ | ⟨-, rfl⟩ | ⟨-, rfl⟩ | ⟨-, rfl⟩ | ⟨hp, -⟩ := step_block_cases hm rfl h
  iterate 3 exact .inl (by simp)
  · -- SAMPLE1, high
    exact .inr (.inr (.inl ⟨hp, by rwa [State.takeMove_line] at hl⟩))
  iterate 3 exact .inl (by simp)
  · -- SAMPLE2
    exact .inl s.takeMove_accumulator
  · -- ACCUM
    exact .inr (.inl ⟨hp, _, rfl⟩)
  iterate 3 exact .inl (by simp)
  · -- FIN_DONE
    exact .inr (.inr (.inr hp))

/-- Of the other agents' steps only a hardware reset writes the accumulator. -/
theorem step_other_accumulator {s t : State} (hm : s.nextMove ≠ .block) (h : step s = .next t) :
    t.accumulator = s.accumulator ∨ ∃ a b c, s.nextMove = .hardwareReset a b c := by
  obtain ⟨-, rfl⟩ | ⟨v, -, rfl⟩ | ⟨-, -, rfl⟩ | ⟨d, -, rfl⟩ | ⟨-, rfl⟩ | ⟨-, rfl⟩ | ⟨-, r, rfl⟩ |
    ⟨a, b, c, ha, -⟩ := step_other_cases hm rfl h
  iterate 7 exact .inl (by simp [State.accumulator])
  exact .inr ⟨a, b, c, ha⟩

/-! ## The obligations -/

/-- Settles O23: the two words that SYM_BIT1 merges share no bit. -/
theorem bitOneAddsPowerOfTwo : Obligations.BitOneAddsPowerOfTwo := by
  intro s t hs hp h
  have hcount : s.Counting := hs.2 hp
  cases h
  rw [State.accumulate_result, hcount.mergeBit_true_toNat]

/-- Settles O24, from what the first `n` bits of a byte leave in the accumulator, at `n = 8`. -/
theorem eightBitsAssembleTheByte : Obligations.EightBitsAssembleTheByte := by
  intro s v hc hr
  have hbits := State.accumulateBits_holdsBits hc hr v (n := 8) le_rfl
  obtain ⟨htrace, hrow, hcol⟩ := s.accumulateBits_trace_cursor v 8
  exact ⟨s.accumulateBits v 8, rfl, hbits.result_eq, BitVec.eq_of_toNat_eq hbits.bitCount_toNat,
    State.accumulateBits_eight_phase hc hr v, htrace, hcol, hrow⟩

/-- Settles O47: every other step leaves the accumulator as it is, but for ACCUM's, which counts from at most 7 and so
leaves a count above 0. -/
theorem accumulatorClearedAtThreePoints : Obligations.AccumulatorClearedAtThreePoints := by
  intro s t hs h hloaded hc hr
  have hwritten : t.accumulator ≠ s.accumulator := fun he =>
    hloaded (State.accumulator_eq_zero_iff.1 (he.symm.trans (State.accumulator_eq_zero_iff.2 ⟨hc, hr⟩)))
  by_cases hm : s.nextMove = .block
  · obtain he | ⟨hp, b, rfl⟩ | hcleared | hcleared := step_block_accumulator hm h
    · exact absurd he hwritten
    · have hcount : s.takeMove.Counting := hs.takeMove.counting (by rw [State.takeMove_phase, hp]; rfl)
      have hup := State.accumulate_bitCount_toNat hcount.1 b
      rw [hc] at hup
      cases hup
    · exact .inr ⟨hm, .inl hcleared⟩
    · exact .inr ⟨hm, .inr hcleared⟩
  · exact .inl ((step_other_accumulator hm h).resolve_left hwritten)

/-- Settles O20: the byte is the merged RESULT, which either outcome of the count keeps. -/
theorem bitOneSetsItsPosition : Obligations.BitOneSetsItsPosition := fun s =>
  ⟨(s.mergeBit true).result, fun _ => s.mergeBit_true_getLsbD,
    fun h => by rw [exec_symBit1, State.accumulate_of_lt h], fun h => by rw [exec_symBit1, State.accumulate_of_ge h]⟩

/-- Settles O21: a merged 0 leaves RESULT as it is. -/
theorem bitZeroOnlyCounts : Obligations.BitZeroOnlyCounts := by
  intro s
  have hmerge : (s.mergeBit false).result = s.result := rfl
  exact ⟨fun h => by rw [exec_symBit0, State.accumulate_of_lt h, hmerge],
    fun h => by rw [exec_symBit0, State.accumulate_of_ge h, hmerge]⟩

/-- Settles O22: the three rows accumulate a bit, and ACCUM's is SYM. -/
theorem accumFollowsSym : Obligations.AccumFollowsSym := fun s =>
  ⟨fun h => by rw [exec_accum, exec_symBit1, h], fun h => by rw [exec_accum, exec_symBit0, h],
    s.accumulate s.sym, exec_accum s, s.accumulate_bitCount _, s.accumulate_trace _, s.accumulate_column _,
    s.accumulate_row _⟩

end Sys2Proof.Machine

/-! # The command decoder and the cursor (43_command_decoder.md): each step of a finalize, and what it emits

First the steps one by one, then what a whole finalize emits and where it leaves the cursor, then the block moves that
run it and what a row of characters comes to, then the obligations of this family. -/

namespace Sys2Proof.Machine

/-! ## The cursor's updates -/

/-- The next row on the 0..7 values (R75, R78). -/
theorem State.nextRow_eq (s : State) : s.nextRow = BitVec.ofNat 3 ((s.row.toNat + 1) % 8) := by
  rw [← s.nextRow_toNat, BitVec.ofNat_toNat, BitVec.setWidth_eq]

/-- One column further is one more, in a word of COLUMN's width (R77). -/
theorem column_add_one (c : Column) : c + 1 = BitVec.ofNat 5 (c.toNat + 1) := by
  rw [BitVec.ofNat_add, BitVec.ofNat_toNat, BitVec.setWidth_eq]
  rfl

/-- A new row is written and sent to the sink (R75, R78). -/
theorem State.moveToRow_goto_eq (s : State) (r : Row) (p : Phase) :
    (s.moveToRow r).goto p =
      { s with row := r, column := 0, trace := s.trace ++ [.setCursor 0 r], phase := p } := rfl

/-! ## What a finalize does, by its command

FIN_WRAP comes first, and the command acts on what it leaves. -/

section
variable {s : State}

/-- The clear command emits CLEAR and homes the cursor (R76). -/
theorem State.finalizeByte_clear_effect (h : s.result.toNat = 1) :
    s.finalizeByte.trace = s.wrapLine.trace ++ [.clear, .setCursor 0 0] ∧
      s.finalizeByte.row = 0 ∧ s.finalizeByte.column = 0 := by
  rw [State.finalizeByte_of_clear (decodeCommand_eq_clear_iff.2 h)]
  simp

/-- The line break goes on to the next row (R78). -/
theorem State.finalizeByte_lineBreak_effect (h : s.result.toNat = 0) :
    s.finalizeByte.trace = s.wrapLine.trace ++ [.setCursor 0 s.wrapLine.nextRow] ∧
      s.finalizeByte.row = s.wrapLine.nextRow ∧ s.finalizeByte.column = 0 := by
  rw [State.finalizeByte_of_lineBreak (decodeCommand_eq_lineBreak_iff.2 h)]
  simp

/-- The print command emits its byte and takes one column, for which FIN_WRAP has left room (R77, R80 item 1). -/
theorem State.finalizeByte_print_effect (h : 2 ≤ s.result.toNat) :
    s.finalizeByte.trace = s.wrapLine.trace ++ [.printChar s.result] ∧
      s.finalizeByte.row = s.wrapLine.row ∧ s.finalizeByte.column.toNat = s.wrapLine.column.toNat + 1 := by
  have hone : (1 : Column).toNat = 1 := rfl
  have hroom := s.wrapLine_column_le
  have hcol : (s.wrapLine.column + 1).toNat = s.wrapLine.column.toNat + 1 :=
    BitVec.toNat_add_of_lt (by omega)
  rw [State.finalizeByte_of_print (decodeCommand_eq_print_iff.2 ⟨h, rfl⟩)]
  simpa using hcol

/-- Every finalize ends in the return (R79). -/
theorem State.finalizeByte_phase (s : State) :
    s.finalizeByte.phase = .idle ∨ s.finalizeByte.phase = .capture :=
  State.endActivation_phase _

/-! ## The block moves that run a finalize -/

/-- What a state reaches by the moves that come first in its own schedule, it runs to. -/
theorem State.Reaches.run_of_schedule {t : State} {ms rest : List Move} (h : s.Reaches ms t)
    (hs : s.schedule = ms ++ rest) : run ms.length s = .next (t.scheduled rest) := by
  have hrun := h.run_eq rest
  rwa [← hs] at hrun

/-- Two block moves run FIN_WRAP and the command's FIN_DISPATCH step. -/
theorem State.reaches_perform (hp : s.phase = .finWrap) :
    s.Reaches [.block, .block] (s.wrapLine.perform (decodeCommand s.result)) := by
  simpa using (State.reaches_finWrap hp).trans (State.reaches_finDispatch s.wrapLine_phase)

/-- A finalize takes four block moves for the clear command, which goes through FIN_HOME, and three for the others,
whatever the return then does (R75–R79). -/
theorem State.reaches_finalizeByte_exactly (hp : s.phase = .finWrap) :
    s.Reaches (List.replicate (if s.result = clearByte then 4 else 3) .block) s.finalizeByte := by
  have hdispatch := State.reaches_perform hp
  obtain ⟨hr, hk⟩ | ⟨hr, hk⟩ | ⟨hr, -, hk⟩ := decodeCommand_cases s.result <;> rw [hk] at hdispatch
  · rw [if_pos hr, State.finalizeByte_of_clear hk]
    exact (hdispatch.trans (State.reaches_finHome rfl)).trans (State.reaches_finDone rfl)
  · rw [if_neg (hr ▸ clearByte_ne_lineBreakByte.symm), State.finalizeByte_of_lineBreak hk]
    exact hdispatch.trans (State.reaches_finDone rfl)
  · rw [if_neg hr, State.finalizeByte_of_print hk]
    exact hdispatch.trans (State.reaches_finDone rfl)

end

/-! ## A row of characters -/

/-- The state with the byte `b` completed in RESULT. -/
def State.withResult (s : State) (b : Byte) : State := { s with result := b }

/-- The state after the byte `b` has been finalized. -/
def State.finalizeChar (s : State) (b : Byte) : State := (s.withResult b).finalizeByte

/-- A character on a row with room is printed, and that is all (R77). -/
theorem State.finalizeChar_of_room {s : State} {b : Byte} (hb : 2 ≤ b.toNat) (hroom : s.column.toNat ≤ 20) :
    (s.finalizeChar b).trace = s.trace ++ [.printChar b] ∧ (s.finalizeChar b).row = s.row ∧
      (s.finalizeChar b).column.toNat = s.column.toNat + 1 := by
  have heffect := State.finalizeByte_print_effect (s := s.withResult b) hb
  rwa [State.wrapLine_of_not_full (s := s.withResult b) hroom] at heffect

/-- A character on a full row goes to the start of the next (R75, R77). -/
theorem State.finalizeChar_of_full {s : State} {b : Byte} (hb : 2 ≤ b.toNat) (hfull : 21 ≤ s.column.toNat) :
    (s.finalizeChar b).trace = s.trace ++ [.setCursor 0 s.nextRow, .printChar b] ∧
      (s.finalizeChar b).row = s.nextRow ∧ (s.finalizeChar b).column = 1 := by
  obtain ⟨htrace, hrow, hcol⟩ := State.finalizeByte_print_effect (s := s.withResult b) hb
  rw [State.wrapLine_of_full (s := s.withResult b) hfull] at htrace hrow hcol
  exact ⟨htrace.trans (List.append_assoc ..), hrow, BitVec.eq_of_toNat_eq hcol⟩

/-- As many characters as the row has room for print, with no cursor command between them (R80 item 4). -/
theorem State.foldl_finalizeChar {bs : List Byte} (hbs : ∀ b ∈ bs, 2 ≤ b.toNat) :
    ∀ {s : State}, s.column.toNat + bs.length ≤ 21 →
      (bs.foldl State.finalizeChar s).trace = s.trace ++ bs.map .printChar ∧
        (bs.foldl State.finalizeChar s).column.toNat = s.column.toNat + bs.length ∧
        (bs.foldl State.finalizeChar s).row = s.row := by
  induction bs with
  | nil => simp
  | cons b bs ih =>
    intro s hroom
    rw [List.length_cons] at hroom
    rw [List.forall_mem_cons] at hbs
    obtain ⟨htrace, hrow, hcol⟩ := State.finalizeChar_of_room (s := s) hbs.1 (by omega)
    obtain ⟨ihtrace, ihcol, ihrow⟩ := ih hbs.2 (s := s.finalizeChar b) (by omega)
    simp only [List.foldl_cons, List.map_cons, List.length_cons]
    exact ⟨ihtrace.trans (by simp [htrace]), by omega, ihrow.trans hrow⟩

/-! ## The obligations -/

/-- Settles O31: the block moves run exactly the finalize, which is FIN_WRAP's effect followed by its command's. -/
theorem finalizeEmitsTableEvents : Obligations.FinalizeEmitsTableEvents := by
  intro s rest w hp hcol hw hs
  have hrun := (State.reaches_finalizeByte_exactly hp).run_of_schedule hs
  rw [List.length_replicate] at hrun
  obtain ⟨hcount, hzero⟩ := s.finalizeByte_accumulator
  obtain ⟨hwtrace, hwrow, hwcol⟩ := State.wrapLine_effect hcol hw
  refine ⟨s.finalizeByte.scheduled rest, hrun, rfl, hcount, hzero, s.finalizeByte_phase, fun hr => ?_, fun hr => ?_,
    fun hr => ?_⟩
  · rw [← hwtrace]
    exact State.finalizeByte_clear_effect (by rw [hr]; rfl)
  · obtain ⟨htrace, hrow, hzerocol⟩ := State.finalizeByte_lineBreak_effect (s := s) (by rw [hr]; rfl)
    have hnext : s.wrapLine.nextRow = BitVec.ofNat 3 (s.row.toNat + 1 + w) := by
      rw [State.nextRow_of_row_eq hwrow, Nat.add_right_comm]
    rw [← hwtrace]
    exact ⟨hrow ▸ htrace, hrow.trans hnext, hzerocol⟩
  · obtain ⟨htrace, hrow, hnextcol⟩ := State.finalizeByte_print_effect hr
    rw [← hwtrace]
    refine ⟨htrace, hrow.trans hwrow, hnextcol.trans ?_⟩
    rw [hwcol]
    split <;> rfl

/-- Settles O32: up to 21 characters fit the row, and the next one finds it full. -/
theorem twentySecondCharacterWraps : Obligations.TwentySecondCharacterWraps := by
  intro s bs hcol hbs hlen
  have hzero : s.column.toNat = 0 := congrArg BitVec.toNat hcol
  obtain ⟨htrace, hcolumn, hrow⟩ := State.foldl_finalizeChar hbs (s := s) (by omega)
  rw [hzero, zero_add] at hcolumn
  refine ⟨bs.foldl State.finalizeChar s, rfl, htrace, hcolumn, hrow, fun c hc hfull => ?_⟩
  have hnext : (bs.foldl State.finalizeChar s).nextRow = BitVec.ofNat 3 (s.row.toNat + 1) :=
    State.nextRow_of_row_eq (by simp [hrow])
  obtain ⟨hwtrace, hwrow, hwcol⟩ := State.finalizeChar_of_full hc (hcolumn.trans hfull).ge
  exact ⟨hnext ▸ hwtrace, hwcol, hwrow.trans hnext⟩

/-- Settles O25, by the two cases of FIN_WRAP. -/
theorem finWrapWrapsFullLine : Obligations.FinWrapWrapsFullLine := fun s =>
  ⟨fun h => by rw [exec_finWrap, State.wrapLine_of_full h, State.moveToRow_goto_eq, State.nextRow_eq],
    fun h => by rw [exec_finWrap, State.wrapLine_of_not_full h]; rfl⟩

/-- Settles O27: CMD_CLEAR emits, and FIN_HOME moves to row 0. -/
theorem clearEmitsClearThenHomes : Obligations.ClearEmitsClearThenHomes := fun s =>
  ⟨rfl, congrArg Host.Outcome.next (s.moveToRow_goto_eq 0 .finDone)⟩

/-- Settles O28: `printByte` counts COLUMN in its own width. -/
theorem printEmitsByteAndAdvances : Obligations.PrintEmitsByteAndAdvances := by
  intro s b
  rw [exec_cmdPrint, ← column_add_one]
  rfl

/-- Settles O29: the line break moves to the next row, whatever COLUMN is. -/
theorem lineBreakAdvancesRow : Obligations.LineBreakAdvancesRow := by
  intro s
  rw [← State.nextRow_eq]
  exact congrArg Host.Outcome.next (s.moveToRow_goto_eq s.nextRow .finDone)

/-- Settles O30: FIN_DONE is the accumulator reset and the return. -/
theorem finDoneClearsAccumulator : Obligations.FinDoneClearsAccumulator := fun _ => rfl

end Sys2Proof.Machine

/-! # The exceptions (60_exceptions.md): the two model faults, and when a step raises each

First which rows read the counter, then the faults of a counter read, of a row and of a step, then the obligation. -/

namespace Sys2Proof

/-- The rows that begin with a counter read (R55, so R56, R59, R61, R62, R65, R66). -/
def Instr.readsCounter : Instr → Bool
  | .ttNow | .ttElapsed _ | .ttWait _ _ _ | .capture | .wait1 | .recapture | .wait2 => true
  | _ => false

/-- The phases whose row is a counter read. -/
theorem Phase.row_readsCounter_iff {p : Phase} :
    (∃ i, p.row = some i ∧ i.readsCounter = true) ↔ p = .capture ∨ p = .wait1 ∨ p = .recapture ∨ p = .wait2 := by
  cases p <;> simp [Phase.row, Instr.readsCounter]

/-- The block never begins the timer's `init()`. -/
theorem Phase.row_ne_ttInit (p : Phase) (half : InitStep) : p.row ≠ some (.ttInit half) := by
  cases p <;> simp [Phase.row]

end Sys2Proof

namespace Sys2Proof.Machine

/-! ## The faults of a row -/

/-- A counter read faults on an unready timer, or where its continuation does. -/
theorem withTick_fault_iff {s : State} {k : Tick → Host.Outcome State Fault Refusal} {f : Fault} :
    withTick s k = .fault f ↔
      f = .timerNotReady ∧ s.tstate ≠ .ready ∨ s.tstate = .ready ∧ k s.tcnt = .fault f := by
  by_cases h : s.tstate = .ready <;> simp [withTick, h, eq_comm]

/-- The two model faults (R83): a counter read of an unready timer, and an `init()` begun within an `init()`. -/
theorem exec_fault_iff {i : Instr} {s : State} {f : Fault} :
    exec i s = .fault f ↔
      f = .timerNotReady ∧ s.tstate ≠ .ready ∧ i.readsCounter = true ∨
      f = .initReentered ∧ s.tstate = .initializing ∧ i = .ttInit .begins := by
  cases i with
  | ttInit half =>
    cases half with
    | begins =>
      by_cases h : s.tstate = .initializing
      · simp [exec_ttInit_begins_of_initializing h, Instr.readsCounter, h, eq_comm]
      · simp [exec_ttInit_begins_of_ne h, Instr.readsCounter, h]
    | completes d => simp [Instr.readsCounter]
  | ttUsToTicks us =>
    rcases Nat.lt_or_ge 255 (s.cfg.conversion.ticks us) with hu | hu <;> simp [hu, Instr.readsCounter]
  | ttNow | ttElapsed | ttWait | capture | wait1 | recapture | wait2 =>
    simp [withTick_fault_iff, Instr.readsCounter]
  | _ => simp [Instr.readsCounter]

/-! ## The faults of a step -/

/-- A block move comes to the row its PHASE selects (R14). -/
theorem State.select_block_run_iff {s : State} {i : Instr} : s.select .block = .run i ↔ s.phase.row = some i := by
  cases h : s.phase.row <;> simp [State.select, h]

/-- The moves that read the counter: the two queries, and the block in the phases that read it. -/
theorem State.select_readsCounter_iff {s : State} {m : Move} :
    (∃ i, s.select m = .run i ∧ i.readsCounter = true) ↔
      m = .now ∨ (∃ r, m = .elapsed r) ∨
        m = .block ∧ (s.phase = .capture ∨ s.phase = .wait1 ∨ s.phase = .recapture ∨ s.phase = .wait2) := by
  cases m with
  | block => simp [State.select_block_run_iff, Phase.row_readsCounter_iff]
  | _ => simp [State.select, Instr.readsCounter]

/-- The one move that begins the timer's `init()` is the boot agent's. -/
theorem State.select_begins_iff {s : State} {m : Move} : s.select m = .run (.ttInit .begins) ↔ m = .initBegins := by
  cases m with
  | block => simp [State.select_block_run_iff, Phase.row_ne_ttInit]
  | _ => simp [State.select]

/-- A step faults only where the table row it runs does: no agent's step outside the table faults (R82). -/
theorem step_fault_iff {s : State} {f : Fault} :
    step s = .fault f ↔ ∃ i, s.takeMove.select s.nextMove = .run i ∧ exec i s.takeMove = .fault f := by
  cases h : s.takeMove.select s.nextMove <;> simp [step, h]

/-- `timerNotReady` is a move that reads the counter, on an unready timer. -/
theorem step_timerNotReady_iff {s : State} :
    step s = .fault .timerNotReady ↔
      s.tstate ≠ .ready ∧ ∃ i, s.takeMove.select s.nextMove = .run i ∧ i.readsCounter = true := by
  simp [step_fault_iff, exec_fault_iff, and_left_comm]

/-- `initReentered` is a move that begins `init()`, within an `init()`. -/
theorem step_initReentered_iff {s : State} :
    step s = .fault .initReentered ↔
      s.takeMove.select s.nextMove = .run (.ttInit .begins) ∧ s.tstate = .initializing := by
  simp [step_fault_iff, exec_fault_iff, and_comm]

/-! ## The obligation -/

/-- Settles O48: the moves that read the counter raise the one fault, and the move that begins `init()` the other. -/
theorem onlyTheTwoFaults : Obligations.OnlyTheTwoFaults := by
  intro s
  constructor
  · rw [step_timerNotReady_iff, State.select_readsCounter_iff, State.takeMove_phase]
  · rw [step_initReentered_iff, State.select_begins_iff]

end Sys2Proof.Machine

/-! # Reset and the hazards of boot (70_reset_and_hazards.md): the boot sequence, and an edge that comes too early

First one rule for each of boot's moves, then the whole sequence, then the obligations. -/

namespace Sys2Proof.Machine

/-! ## The moves of boot (R99) -/

/-- The sink's `init()` touches nothing of the machine (R99 step 2). -/
theorem State.reaches_sinkInit (s : State) : s.Reaches [.sinkInit] s :=
  State.reaches_move fun _ => rfl

/-- The edge source is enabled (R99 step 3). -/
theorem State.reaches_enableEdges (s : State) : s.Reaches [.enableEdges] s.enableEdges :=
  State.reaches_move fun _ => rfl

/-- The state with the timer READY at `draw`, as `init()` leaves it (R53). -/
def State.timerReady (s : State) (draw : Tick) : State := { s with tcnt := draw, tstate := .ready }

/-- The timer's `init()`, begun where none is in progress, runs to READY (R53, R99 step 1). -/
theorem State.reaches_ttInit {s : State} (h : s.tstate ≠ .initializing) (draw : Tick) :
    s.Reaches [.initBegins, .initCompletes draw] (s.timerReady draw) :=
  have hbegins : s.Reaches [.initBegins] { s with tstate := .initializing } :=
    State.reaches_move fun rest => exec_ttInit_begins_of_ne (s := s.scheduled rest) h
  have hcompletes : ({ s with tstate := .initializing } : State).Reaches [.initCompletes draw] (s.timerReady draw) :=
    State.reaches_move fun _ => congrArg _ (State.completeInit_of_initializing rfl draw)
  hbegins.trans hcompletes

/-- Boot's four moves arm the timer and the edge source, and change nothing else (R99). -/
theorem State.reaches_boot {s : State} (h : s.tstate ≠ .initializing) (draw : Tick) :
    s.Reaches (TickStatement.boot draw).moves (s.timerReady draw).enableEdges :=
  ((State.reaches_ttInit h draw).trans (State.reaches_sinkInit _)).trans (State.reaches_enableEdges _)

/-! ## The activation before `init()` (R61, R83) -/

/-- A block step in CAPTURE reads the counter, so it faults on an unready timer. -/
theorem step_capture_of_notReady {s : State} (hm : s.nextMove = .block) (hp : s.phase = .capture)
    (hr : s.tstate ≠ .ready) : step s = .fault .timerNotReady := by
  have hrow : s.phase.row = some .capture := by rw [hp]; rfl
  rw [step_block_of_row hm hrow, exec_capture, withTick_notReady (by rwa [State.takeMove_tstate])]

/-! ## The obligations -/

/-- Settles O54: the schedule begins with boot's own moves. -/
theorem bootSequenceArms : Obligations.BootSequenceArms := fun _ draw _ hinit hs =>
  (State.reaches_boot hinit draw).run_of_schedule hs

/-- Settles O55: the edge takes the machine to CAPTURE and leaves the timer as it is. -/
theorem edgeBeforeInitFaultsAtCapture : Obligations.EdgeBeforeInitFaultsAtCapture := by
  intro s rest hr he hp hl hs
  have hedge : run 1 s = .next (((s.withLine false).goto .capture).scheduled (.block :: rest)) :=
    (State.reaches_line_of_falls ⟨hl, rfl⟩ he hp).run_of_schedule hs
  rw [run_add hedge 1, run_one]
  exact step_capture_of_notReady rfl rfl hr

end Sys2Proof.Machine
